-- ==== Sys2Proof/Word.lean ====
section
/-! DEFINITION. The byte, the register address, and one access on the host's bus (the form in which
an instruction of the unit is encoded: 95_test_vectors.md L3 writes programs as lists of them). -/

namespace Sys2Proof

/-- One register or buffer byte: `DATA_W` = 8 (00_scope R6). -/
abbrev Byte := BitVec 8

/-- One register address: `ADDR_W` = 8 (00_scope R6, 20_memory R35). -/
abbrev Addr := BitVec 8

/-- One host access as the bus carries it. A write carries its data bytes, so its width is their
number; a read carries the width asked for. The unit's bus offers width 1 only (20_memory R42);
other widths are kept here so that the decoder can refuse them. -/
inductive BusAccess where
  /-- `MemRead(a, width)`. -/
  | read (a : Addr) (width : Nat)
  /-- `MemWrite(a, data.length, data)`. -/
  | write (a : Addr) (data : List Byte)
  deriving DecidableEq, Repr

/-- The width of an access in bytes. -/
def BusAccess.width : BusAccess → Nat
  | .read _ n => n
  | .write _ data => data.length

end Sys2Proof
end

