-- ==== Sys2Proof/Syntax.lean ====
section
/-! DEFINITION. The instructions: one constructor per row of spec/opcode_table.json
(30_encoding R55). -/

namespace Sys2Proof

/-- The commands written to CMD, the CRC_DATA write, and the host's register reads and writes. -/
inductive Instr where
  /-- NOP (43_control R95). -/
  | nop
  /-- CRC.INIT (40_crc R74). -/
  | crcInit
  /-- CRC.RX (40_crc R75). -/
  | crcRx
  /-- CRC.TX (40_crc R76). -/
  | crcTx
  /-- MUX.DEC (41_mux R81). -/
  | muxDec
  /-- MUX.ENC (41_mux R87). -/
  | muxEnc
  /-- COM.DEC (42_serial R89). -/
  | comDec
  /-- BGF.SEND s; all eight values of the slot field are admitted (30_encoding R53). -/
  | bgfSend (slot : BitVec 3)
  /-- BGF.RECV (42_serial R92). -/
  | bgfRecv
  /-- A reserved command code (43_control R96). -/
  | reserved (code : Byte)
  /-- CRC.UPD b: a host write of b to CRC_DATA (30_encoding R54, 40_crc R73). -/
  | crcUpd (b : Byte)
  /-- WR a, v: a host write that is neither a command nor CRC.UPD (20_memory R37). -/
  | wr (a : Addr) (v : Byte)
  /-- RD a: a host read (20_memory R36). -/
  | rd (a : Addr)
  deriving DecidableEq, Repr

end Sys2Proof
end

