-- ==== Sys2Proof/WellFormed.lean ====
section
/-! DEFINITION. The checks an instruction meets when it stands for an access of its own row. -/

namespace Sys2Proof

/-- The reserved command codes, by the ranges of 30_encoding R57. -/
def reservedCode (c : Byte) : Bool :=
  (0x04 ≤ c && c ≤ 0x0F) || (0x12 ≤ c && c ≤ 0x1F) || (0x21 ≤ c && c ≤ 0x2F) || 0x39 ≤ c

/-- `reserved` holds a reserved code (R57); `wr` addresses neither CMD nor CRC_DATA, whose writes
are commands and CRC.UPD (the table's row for WR). Every other operand value is admitted. -/
def wellFormed : Instr → Bool
  | .nop => true
  | .crcInit => true
  | .crcRx => true
  | .crcTx => true
  | .muxDec => true
  | .muxEnc => true
  | .comDec => true
  | .bgfSend _ => true
  | .bgfRecv => true
  | .reserved c => reservedCode c
  | .crcUpd _ => true
  | .wr a _ => a != 0x00 && a != 0x03
  | .rd _ => true

/-- `wellFormed` as a proposition. -/
abbrev WellFormed (i : Instr) : Prop := wellFormed i = true

end Sys2Proof
end

