-- ==== Sys2Proof/Decode.lean ====
section
/-! DEFINITION. The decoder from bus accesses to instructions, total, refusing by name, and the
encoder back. -/

namespace Sys2Proof

/-- Why the decoder refuses an access. -/
inductive DecodeReject where
  /-- An access of a width other than 1 byte (20_memory R42, 93 U12). -/
  | badWidth (width : Nat)
  deriving DecidableEq, Repr

/-- What the decoder answers. -/
inductive Decoded where
  | instr (i : Instr)
  | reject (r : DecodeReject)
  deriving DecidableEq, Repr

/-- The command of a byte written to CMD (30_encoding R56). -/
def decodeCommand (c : Byte) : Instr :=
  if c = 0x00 then .nop
  else if c = 0x01 then .crcInit
  else if c = 0x02 then .crcRx
  else if c = 0x03 then .crcTx
  else if c = 0x10 then .muxDec
  else if c = 0x11 then .muxEnc
  else if c = 0x20 then .comDec
  else if c.extractLsb' 3 5 = 0b00110 then .bgfSend (c.extractLsb' 0 3)
  else if c = 0x38 then .bgfRecv
  else .reserved c

/-- The instruction of a 1-byte write (30_encoding R55, R54; 20_memory R37). -/
def decodeWrite (a : Addr) (v : Byte) : Instr :=
  if a = 0x00 then decodeCommand v
  else if a = 0x03 then .crcUpd v
  else .wr a v

/-- The instruction of a bus access; every width but 1 is refused (20_memory R42). -/
def decodeAccess : BusAccess → Decoded
  | .read a width => if width = 1 then .instr (.rd a) else .reject (.badWidth width)
  | .write a [v] => .instr (decodeWrite a v)
  | .write _ data => .reject (.badWidth data.length)

/-- The access that carries an instruction (30_encoding R55, R65). -/
def encode : Instr → BusAccess
  | .nop => .write 0x00 [0x00]
  | .crcInit => .write 0x00 [0x01]
  | .crcRx => .write 0x00 [0x02]
  | .crcTx => .write 0x00 [0x03]
  | .muxDec => .write 0x00 [0x10]
  | .muxEnc => .write 0x00 [0x11]
  | .comDec => .write 0x00 [0x20]
  | .bgfSend slot => .write 0x00 [0x30 + slot.setWidth 8]
  | .bgfRecv => .write 0x00 [0x38]
  | .reserved c => .write 0x00 [c]
  | .crcUpd b => .write 0x03 [b]
  | .wr a v => .write a [v]
  | .rd a => .read a 1

/-- The low `n` bytes of `w`, the least significant first. -/
def bytesOfWord : Nat → Nat → List Byte
  | 0, _ => []
  | n + 1, w => BitVec.ofNat 8 w :: bytesOfWord n (w / 256)

/-- The access that stands for an opcode-table word: the table numbers the bits of the byte written
to CMD, so 8 bits (or fewer) are one byte written to CMD, and more bits a wider write to CMD. -/
def tableAccess (nbits w : Nat) : BusAccess :=
  .write 0x00 (bytesOfWord (max 1 ((nbits + 7) / 8)) w)

/-- The instruction the decoder reads from an opcode-table word, none where it refuses. -/
def decodeTableWord (nbits w : Nat) : Option Instr :=
  match decodeAccess (tableAccess nbits w) with
  | .instr i => some i
  | .reject _ => none

end Sys2Proof
end

