-- ==== Sys2Proof/Config.lean ====
section
/-! DEFINITION. What an implementation fixes: the OPEN parameters of 00_scope R6 as data that the
machine takes as an argument, and the literals of R6 under their names (92 D43). -/

namespace Sys2Proof

/-- The OPEN parameters of 00_scope R6. Which sets are admitted is `Params.valid` (R7). Bit
positions are kept as naturals so that a set that breaks R7 can be written down and refused. -/
structure Params where
  /-- `CRC_POLY`, normal form, low 8 coefficients (92 D3). -/
  crcPoly : Byte
  /-- `CRC_INIT` (92 D3). -/
  crcInit : Byte
  /-- `CRC_REFLECT` (92 D3). -/
  crcReflect : Bool
  /-- `OUT_MSB_FIRST` (92 D15). -/
  outMsbFirst : Bool
  /-- `TYRE_BIT`, a bit of CHASSIS (92 D16). -/
  tyreBit : Nat
  /-- `BRAKES_BIT`, a bit of CHASSIS (92 D16). -/
  brakesBit : Nat
  /-- `BATT_DISCH_BIT`, a bit of BATT (92 D16). -/
  battDischBit : Nat
  /-- `BATT_KO_BIT`, a bit of BATT (92 D16). -/
  battKoBit : Nat
  /-- `MOTOR_BIT_A`, a bit of MOTOR (92 D16). -/
  motorBitA : Nat
  /-- `MOTOR_BIT_B`, a bit of MOTOR (92 D16). -/
  motorBitB : Nat
  /-- `MOTOR_BIT_C`, a bit of MOTOR (92 D16). -/
  motorBitC : Nat
  /-- `BGF_ID[0..4]` (92 D22). -/
  bgfId : Vector Byte 5
  /-- `BGF_FLAG_FIELD_IS_ID` (92 D24). -/
  bgfFlagFieldIsId : Bool
  deriving DecidableEq, Repr

/-- The default of every OPEN parameter (00_scope R6), used by every test vector of 95. -/
def Params.default : Params where
  crcPoly := 0x07
  crcInit := 0x00
  crcReflect := false
  outMsbFirst := true
  tyreBit := 0
  brakesBit := 1
  battDischBit := 0
  battKoBit := 1
  motorBitA := 0
  motorBitB := 1
  motorBitC := 2
  bgfId := #v[0x01, 0x02, 0x03, 0x04, 0x05]
  bgfFlagFieldIsId := false

/-- `CRC_XOROUT`, fixed (00_scope R6, 92 D4). -/
def Config.crcXorOut : Byte := 0x00

/-- `BUF_SIZE` (00_scope R6). -/
def Config.bufSize : Nat := 16

/-- `MUX_IN_LEN` (00_scope R6). -/
def Config.muxInLen : Nat := 15

/-- `COMODO_LEN` (00_scope R6). -/
def Config.comodoLen : Nat := 1

/-- `BGF_LEN` (00_scope R6). -/
def Config.bgfLen : Nat := 2

/-- `FRAME_MIN` (00_scope R6). -/
def Config.frameMin : Nat := 1

/-- `FRAME_MAX` (00_scope R6). -/
def Config.frameMax : Nat := 100

/-- `FUEL_MAX` (00_scope R6). -/
def Config.fuelMax : Nat := 40

/-- `RPM_MAX` (00_scope R6). -/
def Config.rpmMax : Nat := 10000

/-- `FUEL_LOW_PCT` (00_scope R6). -/
def Config.fuelLowPct : Nat := 5

end Sys2Proof
end

