-- ==== Sys2Proof/Machine/State.lean ====
section
/-! DEFINITION. The state of the unit (10_state R11), its reset value (70_reset R112), and the
reasons a step can stop. -/

namespace Sys2Proof.Machine

/-- One BGF message: its id byte and its flag byte (30_encoding R64). -/
structure BgfMessage where
  id : Byte
  flag : Byte
  deriving DecidableEq, Repr

/-- The cells of RXBUF (0x10..0x1F) and TXBUF (0x20..0x2F) by register address, in one canonical
form (`Memory.wf`): addresses rising, none listed with the reset content. -/
abbrev Memory := List Host.Cell

/-- What reaches the unit from outside, one per step. -/
inductive HostInput where
  /-- A host access (20_memory R46). -/
  | access (b : BusAccess)
  /-- Reset is asserted (70_reset R112, 92 D50). -/
  | reset
  deriving DecidableEq, Repr

/-- The state: the parameters this unit was built with, its registers (10_state R13), buffers
(R19, R21) and hidden cache (R32), and the model's own two fields for the host's side. -/
structure State where
  /-- The OPEN parameters (00_scope R6); no access changes them. -/
  params : Params
  /-- STATUS (R15). -/
  status : Byte
  /-- CRC (R17). -/
  crc : Byte
  /-- RXLEN (R20). -/
  rxlen : Byte
  /-- TXLEN (R22). -/
  txlen : Byte
  /-- EXPFRAME (R23). -/
  expframe : Byte
  /-- FLAGS (R24). -/
  flags : Byte
  /-- CMDS (R25). -/
  cmds : Byte
  /-- ACK, bits 4:0; bits 7:5 read 0 (R26, R13). -/
  ack : BitVec 5
  /-- ERRCNT (R27). -/
  errcnt : Byte
  /-- BGF_RXID (R28). -/
  bgfRxid : Byte
  /-- BGF_RXFLAG (R28). -/
  bgfRxflag : Byte
  /-- RXBUF and TXBUF (R19, R21). -/
  mem : Memory
  /-- FRAMENO (R29). -/
  frameno : Byte
  /-- DIST (R29). -/
  dist : BitVec 32
  /-- SPEED (R29). -/
  speed : Byte
  /-- CHASSIS (R29). -/
  chassis : Byte
  /-- MOTOR (R29). -/
  motor : Byte
  /-- FUEL (R29). -/
  fuel : Byte
  /-- RPM (R29). -/
  rpm : BitVec 16
  /-- BATT (R29). -/
  batt : Byte
  /-- LASTCRC (R29). -/
  lastcrc : Byte
  /-- CACHE[0..4]; `none` is an entry with valid = 0 (R32, 93 U6). -/
  cache : Vector (Option BgfMessage) 5
  /-- The model's own: the host inputs not yet performed, in the order issued (20_memory R46). -/
  pending : List HostInput
  /-- The model's own: the byte the latest host read returned (20_memory R36). -/
  readData : Option Byte
  deriving DecidableEq, Repr

/-- The unit has no fault: every error it detects is a report in STATUS (60_exceptions R98, R103).
Nothing raises one, so the type is empty. -/
inductive Fault where
  deriving DecidableEq, Repr

/-- Why the model refuses to go on. -/
inductive Refusal where
  /-- Raised by `exec` for an instruction without a meaning; no instruction is in that case. Safe. -/
  | notModelled (mnemonic : String)
  /-- Raised by `step` for a host access of a width other than 1 byte (20_memory R42: a model must
  refuse it; the bus cannot issue it). Safe. -/
  | accessWidth (width : Nat)
  /-- Raised by `step` for a parameter set that breaks 00_scope R7 (a model must refuse it). Safe. -/
  | parameterSet
  deriving DecidableEq, Repr

/-- The reset state of a unit built with parameters `p` (70_reset R112, the reset column of
10_state R13). -/
def State.resetWith (p : Params) : State where
  params := p
  status := 0x00
  crc := p.crcInit
  rxlen := 0x00
  txlen := 0x00
  expframe := 0x01
  flags := 0x00
  cmds := 0x00
  ack := 0
  errcnt := 0x00
  bgfRxid := 0x00
  bgfRxflag := 0x00
  mem := []
  frameno := 0x00
  dist := 0
  speed := 0x00
  chassis := 0x00
  motor := 0x00
  fuel := 0x00
  rpm := 0
  batt := 0x00
  lastcrc := 0x00
  cache := Vector.replicate 5 none
  pending := []
  readData := none

/-- The machine right after reset, at the spec's default parameters (00_scope R6), with no host
access issued. -/
def State.reset : State := State.resetWith Params.default

end Sys2Proof.Machine
end

