-- ==== Sys2Proof/Machine/Operands.lean ====
section
/-! DEFINITION. Operand forms: the bit-field and byte-order helpers of 00_scope R9, the register map
of 10_state R13, bounds (R30), and the slot table (R33). -/

namespace Sys2Proof.Machine

/-- `getbit(v, i)` (00_scope R9). -/
def getbit (v : Byte) (i : Nat) : Bool := v.getLsbD i

/-- `zext_8` of one bit (00_scope R9). -/
def zextBit (b : Bool) : Byte := if b then 0x01 else 0x00

/-- `rev8(v)`: bit i moves to bit 7-i (40_crc R67). -/
def rev8 (v : Byte) : Byte :=
  BitVec.ofBool (v.getLsbD 0) ++ BitVec.ofBool (v.getLsbD 1) ++ BitVec.ofBool (v.getLsbD 2)
    ++ BitVec.ofBool (v.getLsbD 3) ++ BitVec.ofBool (v.getLsbD 4) ++ BitVec.ofBool (v.getLsbD 5)
    ++ BitVec.ofBool (v.getLsbD 6) ++ BitVec.ofBool (v.getLsbD 7)

/-- `be16(b0, b1)` as a number (00_scope R9). -/
def be16 (b0 b1 : Byte) : Nat := b0.toNat * 2 ^ 8 + b1.toNat

/-- `be32(b0, b1, b2, b3)` as a number (00_scope R9, 20_memory R39). -/
def be32 (b0 b1 b2 b3 : Byte) : Nat :=
  b0.toNat * 2 ^ 24 + b1.toNat * 2 ^ 16 + b2.toNat * 2 ^ 8 + b3.toNat

/-- `byte_k(v)` = `v[8k+7:8k]` (00_scope R9). -/
def byteK (k : Nat) {n : Nat} (v : BitVec n) : Byte := v.extractLsb' (8 * k) 8

/-- `v` with its byte k replaced (20_memory R40). -/
def setByteK (k : Nat) (b : Byte) {n : Nat} (v : BitVec n) : BitVec n :=
  (v &&& ~~~((0xFF : BitVec n) <<< (8 * k))) ||| (b.setWidth n <<< (8 * k))

/-- The registers of 10_state R13, by name. -/
inductive Reg where
  | cmd | status | crc | crcData | rxlen | txlen | expframe | flags | cmds | ack | errcnt
  | bgfRxid | bgfRxflag
  /-- RXBUF[i] (R19). -/
  | rxbuf (i : Nat)
  /-- TXBUF[i] (R21). -/
  | txbuf (i : Nat)
  | frameno
  /-- DIST byte k, DIST[8k+7:8k] (20_memory R40). -/
  | dist (k : Nat)
  | speed | chassis | motor | fuel | rpmHi | rpmLo | batt | lastcrc
  | reserved
  deriving DecidableEq, Repr

/-- The access types of 10_state R13. -/
inductive Access where
  | w | r | rw | rwb | rw1c | reserved
  deriving DecidableEq, Repr

/-- The register at an address (10_state R13, 20_memory R44). -/
def regAt (a : Addr) : Reg :=
  match a with
  | 0x00 => .cmd
  | 0x01 => .status
  | 0x02 => .crc
  | 0x03 => .crcData
  | 0x04 => .rxlen
  | 0x05 => .txlen
  | 0x06 => .expframe
  | 0x07 => .flags
  | 0x08 => .cmds
  | 0x09 => .ack
  | 0x0A => .errcnt
  | 0x0B => .bgfRxid
  | 0x0C => .bgfRxflag
  | 0x30 => .frameno
  | 0x31 => .dist 3
  | 0x32 => .dist 2
  | 0x33 => .dist 1
  | 0x34 => .dist 0
  | 0x35 => .speed
  | 0x36 => .chassis
  | 0x37 => .motor
  | 0x38 => .fuel
  | 0x39 => .rpmHi
  | 0x3A => .rpmLo
  | 0x3B => .batt
  | 0x3C => .lastcrc
  | a =>
    if a.extractLsb' 4 4 = 0x1 then .rxbuf (a.toNat - 0x10)
    else if a.extractLsb' 4 4 = 0x2 then .txbuf (a.toNat - 0x20)
    else .reserved

/-- The access type of a register (10_state R13). -/
def accessType : Reg → Access
  | .cmd | .crcData => .w
  | .status | .txlen | .cmds | .bgfRxid | .bgfRxflag => .r
  | .crc | .rxlen | .flags | .errcnt | .rxbuf _ | .txbuf _ | .dist _ | .speed | .chassis
  | .motor | .batt | .lastcrc => .rw
  | .expframe | .frameno | .fuel | .rpmHi | .rpmLo => .rwb
  | .ack => .rw1c
  | .reserved => .reserved

/-- The memory cell of RXBUF[i] (10_state R19). -/
def rxCell (i : Nat) : Nat := 0x10 + i

/-- The memory cell of TXBUF[i] (10_state R21). -/
def txCell (i : Nat) : Nat := 0x20 + i

/-- 1..100, the bound of FRAMENO and EXPFRAME (10_state R30). -/
def frameInBound (v : Byte) : Bool := Config.frameMin ≤ v.toNat && v.toNat ≤ Config.frameMax

/-- 0..40, the bound of FUEL (10_state R30). -/
def fuelInBound (v : Byte) : Bool := v.toNat ≤ Config.fuelMax

/-- 0..10000, the bound of RPM, on the value before it is narrowed (10_state R30, 41_mux R81). -/
def rpmInBound (n : Nat) : Bool := n ≤ Config.rpmMax

/-- The next expected frame number (41_mux R80). -/
def nextFrame (v : Byte) : Byte := if v.toNat = Config.frameMax then 1 else v + 1

/-- The slot a BGF.SEND operand names; 5, 6 and 7 name none (30_encoding R53). -/
def namedSlot (slot : BitVec 3) : Option (Fin 5) :=
  if h : slot.toNat < 5 then some ⟨slot.toNat, h⟩ else none

/-- `fbit(s)`: the FLAGS bit of a slot (10_state R33, 42_serial R90). -/
def fbit (slot : Fin 5) : Nat := #v[6, 5, 4, 2, 3][slot]

/-- `slot_of(id)` (10_state R33). -/
def slotOf (p : Params) (id : Byte) : Option (Fin 5) :=
  if id = p.bgfId[0] then some 0
  else if id = p.bgfId[1] then some 1
  else if id = p.bgfId[2] then some 2
  else if id = p.bgfId[3] then some 3
  else if id = p.bgfId[4] then some 4
  else none

/-- The message the unit produces for a slot (42_serial R90). -/
def bgfMessage (p : Params) (flags : Byte) (slot : Fin 5) : BgfMessage where
  id := p.bgfId[slot]
  flag := if p.bgfFlagFieldIsId then p.bgfId[slot] else zextBit (getbit flags (fbit slot))

end Sys2Proof.Machine
end

