-- ==== Sys2Proof/Machine/CrcFunction.lean ====
section
/-! DEFINITION. The CRC-8 functions (40_crc R67, R68). -/

namespace Sys2Proof.Machine

/-- One of the eight shift steps of `crc8_update` (40_crc R67). -/
def crcShift (p : Params) (c : Byte) : Byte :=
  if p.crcReflect = false then
    if c.getLsbD 7 then (c <<< 1) ^^^ p.crcPoly else c <<< 1
  else
    if c.getLsbD 0 then (c >>> 1) ^^^ rev8 p.crcPoly else c >>> 1

/-- `crcShift` n times. -/
def crcShifts (p : Params) : Nat → Byte → Byte
  | 0, c => c
  | n + 1, c => crcShifts p n (crcShift p c)

/-- `crc8_update(c, b)` (40_crc R67). -/
def crc8Update (p : Params) (c b : Byte) : Byte := crcShifts p 8 (c ^^^ b)

/-- `crc8_compute(s)` (40_crc R68). -/
def crc8Compute (p : Params) (bytes : List Byte) : Byte :=
  bytes.foldl (crc8Update p) p.crcInit ^^^ Config.crcXorOut

end Sys2Proof.Machine
end

