-- ==== Sys2Proof/Machine/Flags.lean ====
section
/-! DEFINITION. STATUS: its bits (10_state R15) and the codes of the reports (60_exceptions R98). -/

namespace Sys2Proof.Machine

/-- OK, bit 0 (R15). -/
def statusOk : Byte := 0x01

/-- CRC_ERR, bit 1 (R15). -/
def statusCrcErr : Byte := 0x02

/-- SEQ_WARN, bit 2 (R15). -/
def statusSeqWarn : Byte := 0x04

/-- LEN_ERR, bit 3 (R15). -/
def statusLenErr : Byte := 0x08

/-- ID_ERR, bit 4 (R15). -/
def statusIdErr : Byte := 0x10

/-- SUPPR, bit 5 (R15). -/
def statusSuppr : Byte := 0x20

/-- ACKED, bit 6 (R15). -/
def statusAcked : Byte := 0x40

/-- ILL, bit 7 (R15). -/
def statusIll : Byte := 0x80

/-- The error causes a command can raise (60_exceptions R98). -/
inductive Report where
  | lenError
  | crcError
  | idError
  | illegalCommand
  deriving DecidableEq, Repr

/-- The STATUS code of a report (60_exceptions R98). -/
def reportCode : Report → Byte
  | .lenError => statusLenErr
  | .crcError => statusCrcErr
  | .idError => statusIdErr
  | .illegalCommand => statusIll

/-- The sequence check (41_mux R80): SEQ_WARN when the leading byte is not the expected frame
number. -/
def seqWarning (leading expected : Byte) : Byte :=
  if leading ≠ expected then statusSeqWarn else 0

end Sys2Proof.Machine
end

