-- ==== Sys2Proof/Machine/Ops.lean ====
section
/-! DEFINITION. The shared operations: the buffer memory, the ends of a command (a report raised or a
main effect completed), the bounded setters, the register reads and writes of the host, the reset
action, and the taking of the next host input. -/

namespace Sys2Proof.Machine

/-- What a buffer cell that is not listed reads as: the reset content (70_reset R112). -/
def memDefault : Byte := 0x00

/-- The byte at a cell. -/
def Memory.read : Memory → Nat → Byte
  | [], _ => memDefault
  | (k, b) :: rest, a => if k = a then b else Memory.read rest a

/-- The memory without the listed entries of a cell. -/
def Memory.erase : Memory → Nat → Memory
  | [], _ => []
  | (k, b) :: rest, a => if k = a then Memory.erase rest a else (k, b) :: Memory.erase rest a

/-- The memory with an entry put in its place by address. -/
def Memory.insert : Memory → Nat → Byte → Memory
  | [], a, v => [(a, v)]
  | (k, b) :: rest, a, v =>
    if a < k then (a, v) :: (k, b) :: rest else (k, b) :: Memory.insert rest a v

/-- The memory with one cell written; a canonical memory stays canonical: writing the reset content
removes the cell's entry. -/
def Memory.write (m : Memory) (a : Nat) (v : Byte) : Memory :=
  if v = memDefault then m.erase a else (m.erase a).insert a v

/-- The memory with consecutive cells written, the first byte at the lowest cell. -/
def Memory.writeBytes : Memory → Nat → List Byte → Memory
  | m, _, [] => m
  | m, a, b :: bs => Memory.writeBytes (Memory.write m a b) (a + 1) bs

/-- Canonical form from cell `lo` on: cells strictly rising, within the buffers, none listed with
the reset content. -/
def Memory.wfFrom : Nat → Memory → Bool
  | _, [] => true
  | lo, (k, b) :: rest => lo ≤ k && k < 0x30 && b != memDefault && Memory.wfFrom (k + 1) rest

/-- The canonical form of the buffer memory, cells 0x10..0x2F (20_memory R44). -/
def Memory.wf (m : Memory) : Bool := Memory.wfFrom 0x10 m

/-- RXBUF[i] (10_state R19). -/
def rxByte (s : State) (i : Nat) : Byte := s.mem.read (rxCell i)

/-- TXBUF[i] (10_state R21). -/
def txByte (s : State) (i : Nat) : Byte := s.mem.read (txCell i)

/-- RXBUF[0..n-1]. -/
def rxBytes (s : State) (n : Nat) : List Byte := (List.range n).map (rxByte s)

/-- TXBUF[0..n-1]. -/
def txBytes (s : State) (n : Nat) : List Byte := (List.range n).map (txByte s)

/-- `raise E` (00_scope R9, 60_exceptions R103): STATUS takes the report's code, beside the warning
bits gathered before (SEQ_WARN, 41_mux R81); nothing is saved and no control is transferred. -/
def raiseReport (e : Report) (warnings : Byte) (s : State) : State :=
  { s with status := warnings ||| reportCode e }

/-- The normal end of a command: STATUS takes OK beside the bits `info` (10_state R15, R16). -/
def complete (info : Byte) (s : State) : State :=
  { s with status := info ||| statusOk }

/-- CRC takes a value (10_state R17). -/
def setCrc (v : Byte) (s : State) : State := { s with crc := v }

/-- The incremental update of CRC by one byte (10_state R18, 40_crc R73). -/
def feedCrc (b : Byte) (s : State) : State := setCrc (crc8Update s.params s.crc b) s

/-- FRAMENO, bounded (10_state R30). -/
def setFrameno (v : Byte) (s : State) : State :=
  { s with frameno := if frameInBound v then v else s.frameno }

/-- EXPFRAME as the host writes it, bounded (10_state R30). -/
def setExpframe (v : Byte) (s : State) : State :=
  { s with expframe := if frameInBound v then v else s.expframe }

/-- EXPFRAME advanced from its own value (41_mux R80). -/
def advanceExpframe (s : State) : State := { s with expframe := nextFrame s.expframe }

/-- FUEL, bounded (10_state R30). -/
def setFuel (v : Byte) (s : State) : State :=
  { s with fuel := if fuelInBound v then v else s.fuel }

/-- RPM, bounded before it is narrowed (10_state R30, 41_mux R81). -/
def setRpm (n : Nat) (s : State) : State :=
  { s with rpm := if rpmInBound n then BitVec.ofNat 16 n else s.rpm }

/-- ERRCNT counts one invalid message id (10_state R27). -/
def countIdError (s : State) : State := { s with errcnt := s.errcnt + 1 }

/-- A frame is produced: its bytes go to TXBUF from index 0 and its length to TXLEN; the other
bytes of TXBUF keep their values (10_state R21, R22). -/
def produceFrame (bytes : List Byte) (s : State) : State :=
  { s with mem := s.mem.writeBytes (txCell 0) bytes, txlen := BitVec.ofNat 8 bytes.length }

/-- No frame is produced (10_state R22). -/
def produceNoFrame (s : State) : State := { s with txlen := 0 }

/-- CACHE[slot] takes a message and becomes valid (42_serial R91). -/
def recordSent (slot : Fin 5) (msg : BgfMessage) (s : State) : State :=
  { s with cache := s.cache.set slot (some msg) }

/-- ACK bit `slot` is set (42_serial R92). -/
def setAckBit (slot : Fin 5) (s : State) : State :=
  { s with ack := s.ack ||| (1#5 <<< slot.val) }

/-- The host's write-1-to-clear of ACK (10_state R26). -/
def clearAck (v : Byte) (s : State) : State :=
  { s with ack := s.ack &&& ~~~(v.setWidth 5) }

/-- The byte a register shows to a host read (20_memory R36). -/
def readRegister (s : State) : Reg → Byte
  | .cmd => 0x00
  | .status => s.status
  | .crc => s.crc
  | .crcData => 0x00
  | .rxlen => s.rxlen
  | .txlen => s.txlen
  | .expframe => s.expframe
  | .flags => s.flags
  | .cmds => s.cmds
  | .ack => s.ack.setWidth 8
  | .errcnt => s.errcnt
  | .bgfRxid => s.bgfRxid
  | .bgfRxflag => s.bgfRxflag
  | .rxbuf i => rxByte s i
  | .txbuf i => txByte s i
  | .frameno => s.frameno
  | .dist k => byteK k s.dist
  | .speed => s.speed
  | .chassis => s.chassis
  | .motor => s.motor
  | .fuel => s.fuel
  | .rpmHi => byteK 1 s.rpm
  | .rpmLo => byteK 0 s.rpm
  | .batt => s.batt
  | .lastcrc => s.lastcrc
  | .reserved => 0x00

/-- `MemRead(a, 1)` (20_memory R36). -/
def memRead (s : State) (a : Addr) : Byte := readRegister s (regAt a)

/-- The effect of a host write on a register by its access type (20_memory R37, 10_state R30):
RW stores, RWB stores within the bound, RW1C clears, R and reserved ignore the write. The writes of
the W registers CMD and CRC_DATA are operations of their own and have no stored value here. -/
def writeRegister (r : Reg) (v : Byte) (s : State) : State :=
  match r with
  | .crc => setCrc v s
  | .rxlen => { s with rxlen := v }
  | .expframe => setExpframe v s
  | .flags => { s with flags := v }
  | .ack => clearAck v s
  | .errcnt => { s with errcnt := v }
  | .rxbuf i => { s with mem := s.mem.write (rxCell i) v }
  | .txbuf i => { s with mem := s.mem.write (txCell i) v }
  | .frameno => setFrameno v s
  | .dist k => { s with dist := setByteK k v s.dist }
  | .speed => { s with speed := v }
  | .chassis => { s with chassis := v }
  | .motor => { s with motor := v }
  | .fuel => setFuel v s
  | .rpmHi => setRpm (be16 v (byteK 0 s.rpm)) s
  | .rpmLo => setRpm (be16 (byteK 1 s.rpm) v) s
  | .batt => { s with batt := v }
  | .lastcrc => { s with lastcrc := v }
  | .cmd | .status | .crcData | .txlen | .cmds | .bgfRxid | .bgfRxflag | .reserved => s

/-- The reset action: every piece of the unit's state takes its reset value (70_reset R112). The
parameters are the unit's own, and the host's side (its queue and the byte it last read) is not the
unit's state. -/
def resetUnit (s : State) : State :=
  { State.resetWith s.params with pending := s.pending, readData := s.readData }

/-- The next host input and the state with it taken from the queue (20_memory R46: in the order the
host issues them). -/
def takeInput (s : State) : Option (HostInput × State) :=
  match s.pending with
  | [] => none
  | input :: rest => some (input, { s with pending := rest })

end Sys2Proof.Machine
end

