-- ==== Sys2Proof/Machine/Control.lean ====
section
/-! DEFINITION. The control commands (43_control). -/

namespace Sys2Proof.Machine

/-- NOP: nothing, and STATUS is kept (43_control R95). -/
def execNop (s : State) : Host.Outcome State Fault Refusal := .next s

/-- A reserved code: IllegalCommand, whichever code it is (43_control R96). -/
def execReserved (_code : Byte) (s : State) : Host.Outcome State Fault Refusal :=
  .next (raiseReport .illegalCommand 0 s)

end Sys2Proof.Machine
end

