-- ==== Sys2Proof/Machine/Crc.lean ====
section
/-! DEFINITION. The CRC operations (40_crc R73..R76). -/

namespace Sys2Proof.Machine

/-- The CRC of a buffer of `n` bytes into CRC, shared by CRC.RX and CRC.TX: LenError when `n`
exceeds the buffer (40_crc R75, R76). -/
def crcOverBuffer (bytes : Nat → List Byte) (n : Nat) (s : State) : State :=
  if n > Config.bufSize then raiseReport .lenError 0 s
  else complete 0 (setCrc (crc8Compute s.params (bytes n)) s)

/-- CRC.INIT (40_crc R74). -/
def execCrcInit (s : State) : Host.Outcome State Fault Refusal :=
  .next (complete 0 (setCrc s.params.crcInit s))

/-- CRC.RX: over RXBUF[0..RXLEN-1] (40_crc R75). -/
def execCrcRx (s : State) : Host.Outcome State Fault Refusal :=
  .next (crcOverBuffer (rxBytes s) s.rxlen.toNat s)

/-- CRC.TX: over TXBUF[0..TXLEN-1] (40_crc R76). -/
def execCrcTx (s : State) : Host.Outcome State Fault Refusal :=
  .next (crcOverBuffer (txBytes s) s.txlen.toNat s)

/-- CRC.UPD b: STATUS is not written (40_crc R73). -/
def execCrcUpd (b : Byte) (s : State) : Host.Outcome State Fault Refusal :=
  .next (feedCrc b s)

end Sys2Proof.Machine
end

