-- ==== Sys2Proof/Machine/Mux.lean ====
section
/-! DEFINITION. The MUX codec: MUX.DEC and MUX.ENC (41_mux). -/

namespace Sys2Proof.Machine

/-- The frame in RXBUF carries the CRC of its first 14 bytes (41_mux R79). -/
def muxCrcMatches (s : State) : Bool := crc8Compute s.params (rxBytes s 14) == rxByte s 14

/-- The fields of an inbound frame into the telemetry registers (41_mux R81, 30_encoding R59), the
bounded ones through their setters (10_state R30). -/
def unpackTelemetry (s : State) : State :=
  let b := rxByte s
  setRpm (be32 (b 9) (b 10) (b 11) (b 12)) <| setFuel (b 8) <| setFrameno (b 0)
    { s with
      dist := BitVec.ofNat 32 (be32 (b 1) (b 2) (b 3) (b 4))
      speed := b 5
      chassis := b 6
      motor := b 7
      batt := b 13
      lastcrc := b 14 }

/-- MUX.DEC: delimit, check the sequence and advance EXPFRAME, validate the CRC, unpack
(41_mux R78..R82; the order of the checks is 60_exceptions R102). -/
def execMuxDec (s : State) : Host.Outcome State Fault Refusal :=
  .next <|
    if s.rxlen.toNat ≠ Config.muxInLen then raiseReport .lenError 0 s
    else if muxCrcMatches s then
      complete (seqWarning (rxByte s 0) s.expframe) (unpackTelemetry (advanceExpframe s))
    else
      raiseReport .crcError (seqWarning (rxByte s 0) s.expframe) (advanceExpframe s)

/-- The fuel percentage (41_mux R83). -/
def fuelPct (s : State) : Nat := s.fuel.toNat * 100 / Config.fuelMax

/-- "fuel below 5%" (41_mux R84). -/
def fuelLow (s : State) : Bool := fuelPct s < Config.fuelLowPct

/-- "any motor issue" (41_mux R85). -/
def motorAny (s : State) : Bool := s.motor != 0

/-- RPM divided by 10 (41_mux R86). -/
def rpmTenth (s : State) : BitVec 16 := BitVec.ofNat 16 (s.rpm.toNat / 10)

/-- The items from number `k` on, each at its bit: 7-k or k (30_encoding R62). -/
def packFrom (msbFirst : Bool) : Nat → List Bool → Byte
  | _, [] => 0
  | k, item :: items =>
    (zextBit item <<< (if msbFirst then 7 - k else k)) ||| packFrom msbFirst (k + 1) items

/-- `pack(items)` (41_mux R87, 30_encoding R62). -/
def pack (p : Params) (items : List Bool) : Byte := packFrom p.outMsbFirst 0 items

/-- The items of packed byte 0 (41_mux R87, 30_encoding R62). -/
def muxItems0 (s : State) : List Bool :=
  [getbit s.flags 6, getbit s.flags 5, getbit s.flags 4, fuelLow s, motorAny s,
    getbit s.chassis s.params.tyreBit, false, getbit s.batt s.params.battDischBit]

/-- The items of packed byte 1 (41_mux R87, 30_encoding R62). -/
def muxItems1 (s : State) : List Bool :=
  [getbit s.flags 7, getbit s.batt s.params.battKoBit, getbit s.motor s.params.motorBitA,
    getbit s.motor s.params.motorBitB, getbit s.motor s.params.motorBitC,
    getbit s.chassis s.params.brakesBit, getbit s.flags 1, getbit s.flags 0]

/-- The outbound frame (30_encoding R61). -/
def muxOutFrame (s : State) : List Byte :=
  [pack s.params (muxItems0 s), pack s.params (muxItems1 s),
    byteK 3 s.dist, byteK 2 s.dist, byteK 1 s.dist, byteK 0 s.dist,
    s.speed, BitVec.ofNat 8 (fuelPct s), byteK 1 (rpmTenth s), byteK 0 (rpmTenth s)]

/-- MUX.ENC: pack the outbound frame; no CRC is appended (41_mux R87, 40_crc R77). -/
def execMuxEnc (s : State) : Host.Outcome State Fault Refusal :=
  .next (complete 0 (produceFrame (muxOutFrame s) s))

end Sys2Proof.Machine
end

