-- ==== Sys2Proof/Machine/Serial.lean ====
section
/-! DEFINITION. The serial codecs: COM.DEC, BGF.SEND and BGF.RECV (42_serial). -/

namespace Sys2Proof.Machine

/-- COM.DEC: delimit and unpack a COMODO frame (42_serial R89). -/
def execComDec (s : State) : Host.Outcome State Fault Refusal :=
  .next <|
    if s.rxlen.toNat ≠ Config.comodoLen then raiseReport .lenError 0 s
    else complete 0 { s with cmds := rxByte s 0 }

/-- A BGF.SEND of a slot that exists: suppressed when the cache holds the same message, otherwise
produced and recorded (42_serial R91). -/
def sendMessage (slot : Fin 5) (s : State) : State :=
  let msg := bgfMessage s.params s.flags slot
  if s.cache[slot] = some msg then complete statusSuppr (produceNoFrame s)
  else complete 0 (recordSent slot msg (produceFrame [msg.id, msg.flag] s))

/-- BGF.SEND s; a slot value that names no slot raises IdError (42_serial R91). -/
def execBgfSend (slot : BitVec 3) (s : State) : Host.Outcome State Fault Refusal :=
  .next <|
    match namedSlot slot with
    | none => raiseReport .idError 0 (produceNoFrame (countIdError s))
    | some k => sendMessage k s

/-- The message in RXBUF (30_encoding R64). -/
def receivedMessage (s : State) : BgfMessage where
  id := rxByte s 0
  flag := rxByte s 1

/-- A received message whose id names a slot: recorded, and echo-checked against the cache
(42_serial R92). -/
def acceptMessage (slot : Fin 5) (msg : BgfMessage) (s : State) : State :=
  let s' := { s with bgfRxid := msg.id, bgfRxflag := msg.flag }
  if s.cache[slot] = some msg then complete statusAcked (setAckBit slot s')
  else complete 0 s'

/-- BGF.RECV: delimit, check the id, check the echo (42_serial R92). -/
def execBgfRecv (s : State) : Host.Outcome State Fault Refusal :=
  .next <|
    if s.rxlen.toNat ≠ Config.bgfLen then raiseReport .lenError 0 s
    else
      match slotOf s.params (receivedMessage s).id with
      | none => raiseReport .idError 0 (countIdError s)
      | some k => acceptMessage k (receivedMessage s) s

end Sys2Proof.Machine
end

