-- ==== Sys2Proof/Machine/HostAccess.lean ====
section
/-! DEFINITION. The host's register accesses RD and WR (20_memory R36, R37). -/

namespace Sys2Proof.Machine

/-- "perform command v" (20_memory R37, 30_encoding R56). -/
def performCommand (c : Byte) (s : State) : Host.Outcome State Fault Refusal :=
  if c = 0x00 then execNop s
  else if c = 0x01 then execCrcInit s
  else if c = 0x02 then execCrcRx s
  else if c = 0x03 then execCrcTx s
  else if c = 0x10 then execMuxDec s
  else if c = 0x11 then execMuxEnc s
  else if c = 0x20 then execComDec s
  else if c.extractLsb' 3 5 = 0b00110 then execBgfSend (c.extractLsb' 0 3) s
  else if c = 0x38 then execBgfRecv s
  else execReserved c s

/-- WR a, v: `MemWrite(a, 1, v)`, whole (20_memory R37). A decoded WR never addresses CMD or
CRC_DATA; their cases stand here so that the write has its effect at every address. -/
def execWr (a : Addr) (v : Byte) (s : State) : Host.Outcome State Fault Refusal :=
  match regAt a with
  | .cmd => performCommand v s
  | .crcData => .next (feedCrc v s)
  | r => .next (writeRegister r v s)

/-- RD a: the byte of `MemRead(a, 1)` goes to the host; no other effect (20_memory R36). -/
def execRd (a : Addr) (s : State) : Host.Outcome State Fault Refusal :=
  .next { s with readData := some (memRead s a) }

end Sys2Proof.Machine
end

