-- ==== Sys2Proof/Machine/Dispatch.lean ====
section
/-! DEFINITION. One arm per constructor of Instr. -/

namespace Sys2Proof.Machine

def exec (i : Instr) (s : State) : Host.Outcome State Fault Refusal :=
  match i with
  | .nop => Sys2Proof.Machine.execNop s
  | .crcInit => Sys2Proof.Machine.execCrcInit s
  | .crcRx => Sys2Proof.Machine.execCrcRx s
  | .crcTx => Sys2Proof.Machine.execCrcTx s
  | .muxDec => Sys2Proof.Machine.execMuxDec s
  | .muxEnc => Sys2Proof.Machine.execMuxEnc s
  | .comDec => Sys2Proof.Machine.execComDec s
  | .bgfSend slot => Sys2Proof.Machine.execBgfSend slot s
  | .bgfRecv => Sys2Proof.Machine.execBgfRecv s
  | .reserved code => Sys2Proof.Machine.execReserved code s
  | .crcUpd b => Sys2Proof.Machine.execCrcUpd b s
  | .wr a v => Sys2Proof.Machine.execWr a v s
  | .rd a => Sys2Proof.Machine.execRd a s

end Sys2Proof.Machine
end

