-- ==== Sys2Proof/Machine/Params.lean ====
section
/-! DEFINITION. Which parameter sets a model admits (00_scope R7). -/

namespace Sys2Proof

/-- The constraints of 00_scope R7: CRC_POLY has a constant term (40_crc R70), the seven issue-bit
indices are in 0..7, issues named in one byte have bits of their own, and an id names one slot. -/
def Params.valid (p : Params) : Bool :=
  p.crcPoly.getLsbD 0
    && p.tyreBit ≤ 7 && p.brakesBit ≤ 7 && p.battDischBit ≤ 7 && p.battKoBit ≤ 7
    && p.motorBitA ≤ 7 && p.motorBitB ≤ 7 && p.motorBitC ≤ 7
    && p.tyreBit != p.brakesBit
    && p.battDischBit != p.battKoBit
    && p.motorBitA != p.motorBitB && p.motorBitA != p.motorBitC && p.motorBitB != p.motorBitC
    && decide (p.bgfId.toList.Nodup)

end Sys2Proof
end

