-- ==== Sys2Proof/Machine/Perform.lean ====
section
/-! DEFINITION. What one step does with an access and with a parameter set: the two operations the
step function calls. -/

namespace Sys2Proof.Machine

/-- One access: decoded and performed; a width other than 1 is refused (20_memory R42). -/
def performAccess (b : BusAccess) (s : State) : Host.Outcome State Fault Refusal :=
  match decodeAccess b with
  | .instr i => exec i s
  | .reject (.badWidth n) => .refused (.accessWidth n)

/-- A parameter set that breaks 00_scope R7 is refused, whatever was to be done. -/
def guardParams (p : Params) (outcome : Host.Outcome State Fault Refusal) :
    Host.Outcome State Fault Refusal :=
  if p.valid then outcome else .refused .parameterSet

end Sys2Proof.Machine
end

