-- ==== Sys2Proof/Machine/Step.lean ====
section
/-! DEFINITION. One step of the unit: the next host input, performed whole (20_memory R43). -/

namespace Sys2Proof.Machine

/-- One step. With nothing pending the unit holds its state (60_exceptions R111); reset gives the
reset state (70_reset R112); an access is performed. -/
def step (s : State) : Host.Outcome State Fault Refusal :=
  match takeInput s with
  | none => guardParams s.params (.next s)
  | some (.reset, s') => guardParams s.params (.next (resetUnit s'))
  | some (.access b, s') => guardParams s.params (performAccess b s')

/-- The state with the access of an opcode-table word issued as the host's next input. -/
def State.withFetchWord (s : State) (nbits w : Nat) : State :=
  { s with pending := .access (tableAccess nbits w) :: s.pending }

end Sys2Proof.Machine
end

