-- ==== Sys2Proof/Machine/Script.lean ====
section
/-! DEFINITION. Host scripts (30_encoding R65, R66): the pseudo-operations as instruction lists, and
a script as the accesses a host issues. -/

namespace Sys2Proof.Machine

/-- The writes of consecutive bytes to RXBUF from index `i` on. -/
def loadRxFrom : Nat → List Byte → List Instr
  | _, [] => []
  | i, b :: bs => .wr (BitVec.ofNat 8 (rxCell i)) b :: loadRxFrom (i + 1) bs

/-- `LOADRX b0 ... b(n-1)`, n at most 16 (30_encoding R66). -/
def loadRx (bytes : List Byte) : List Instr :=
  loadRxFrom 0 bytes ++ [.wr 0x04 (BitVec.ofNat 8 bytes.length)]

/-- `CRC.BYTES b0 ... b(n-1)` (30_encoding R66). -/
def crcBytes (bytes : List Byte) : List Instr := bytes.map .crcUpd

/-- `CLRACK m` (30_encoding R66). -/
def clrAck (m : Byte) : List Instr := [.wr 0x09 m]

/-- `SETFLAGS v` (30_encoding R66). -/
def setFlags (v : Byte) : List Instr := [.wr 0x07 v]

/-- `RDTX n`, n at most 16 (30_encoding R66). -/
def rdTx (n : Nat) : List Instr := (List.range n).map fun i => .rd (BitVec.ofNat 8 (txCell i))

/-- The host inputs of a script: its accesses, in order (30_encoding R65, 20_memory R46). -/
def hostIssue (script : List Instr) : List HostInput := script.map fun i => .access (encode i)

end Sys2Proof.Machine
end

