-- ==== Sys2Proof/Safety.lean ====
section
/-! DEFINITION. The terms of the statements: scripts performed in order, the host's view of buffers
and registers, the bounds and the invariant of the unit, and the classes of instructions. -/

namespace Sys2Proof.Machine

/-- The instructions of a script performed in order (20_memory R46), stopping at a stop. -/
def runScript : List Instr → State → Host.Outcome State Fault Refusal
  | [], s => .next s
  | i :: rest, s =>
    match exec i s with
    | .next t => runScript rest t
    | .fault r => .fault r
    | .refused r => .refused r

/-- RXBUF[i] as a host read shows it (10_state R19). -/
def rxAt (s : State) (i : Nat) : Byte := memRead s (BitVec.ofNat 8 (0x10 + i))

/-- TXBUF[i] as a host read shows it (10_state R21). -/
def txAt (s : State) (i : Nat) : Byte := memRead s (BitVec.ofNat 8 (0x20 + i))

/-- RXBUF[0..n-1] as host reads show them. -/
def rxShown (s : State) (n : Nat) : List Byte := (List.range n).map (rxAt s)

/-- TXBUF[0..n-1] as host reads show them. -/
def txShown (s : State) (n : Nat) : List Byte := (List.range n).map (txAt s)

/-- A host read of `a` completes, returns `v`, and changes nothing else. -/
def readsAs (s : State) (a : Addr) (v : Byte) : Prop :=
  exec (.rd a) s = .next { s with readData := some v }

/-- The part of the state that no host read shows is the same: the cache, the parameters, and the
host's side. -/
def sameHidden (s t : State) : Prop :=
  t.params = s.params ∧ t.cache = s.cache ∧ t.pending = s.pending ∧ t.readData = s.readData

/-- Every address outside `written` reads as before. -/
def sameReadsOutside (written : List Addr) (s t : State) : Prop :=
  ∀ a : Addr, a ∉ written → memRead t a = memRead s a

/-- The addresses of the RW registers and of both buffers (the access column of 10_state R13). -/
def storeAddr (a : Addr) : Prop :=
  a = 0x02 ∨ a = 0x04 ∨ a = 0x07 ∨ a = 0x0A ∨ (0x10 ≤ a ∧ a ≤ 0x2F) ∨ (0x31 ≤ a ∧ a ≤ 0x37)
    ∨ a = 0x3B ∨ a = 0x3C

/-- The addresses whose host writes have no effect: the R registers and the reserved addresses
(10_state R13, 20_memory R37). -/
def deadAddr (a : Addr) : Prop :=
  a = 0x01 ∨ a = 0x05 ∨ a = 0x08 ∨ (0x0B ≤ a ∧ a ≤ 0x0F) ∨ 0x3D ≤ a

/-- The addresses of the telemetry registers (10_state R29). -/
def telemetryAddr (a : Addr) : Prop := 0x30 ≤ a ∧ a ≤ 0x3C

/-- The frame in RXBUF is one that MUX.DEC accepts: delimited, and valid (41_mux R78, R79). -/
def muxAccepts (s : State) : Prop :=
  s.rxlen = 15 ∧ crc8Compute s.params (rxShown s 14) = rxAt s 14

/-- `i`, performed at `s`, may write a telemetry register: a host write to one, or a MUX.DEC that
accepts its frame (10_state R29: every telemetry write of MUX.DEC is on a matching CRC). -/
def mayWriteTelemetry (i : Instr) (s : State) : Prop :=
  (i = .muxDec ∧ muxAccepts s) ∨ ∃ a v, i = .wr a v ∧ telemetryAddr a

/-- A script performed from `s` in which no instruction, at the state it is performed at, may write a
telemetry register. -/
def keepsTelemetry : List Instr → State → Prop
  | [], _ => True
  | i :: rest, s => ¬ mayWriteTelemetry i s ∧ ∀ t, exec i s = .next t → keepsTelemetry rest t

/-- The commands written to CMD other than NOP (10_state R16). -/
def isReportingCommand : Instr → Bool
  | .crcInit | .crcRx | .crcTx | .muxDec | .muxEnc | .comDec | .bgfSend _ | .bgfRecv
  | .reserved _ => true
  | .nop | .crcUpd _ | .wr _ _ | .rd _ => false

/-- The value EXPFRAME advances to (41_mux R80). -/
def frameAfter (v : Byte) : Byte := if v = 100 then 1 else v + 1

/-- The flag byte of a slot's message (42_serial R90), by the FLAGS column of 10_state R33. -/
def slotFlag (s : State) (slot : Fin 5) : Byte :=
  if s.params.bgfFlagFieldIsId then s.params.bgfId[slot]
  else if s.flags.getLsbD ([6, 5, 4, 2, 3].getD slot.val 0) then 0x01 else 0x00

/-- The command operand of a slot (30_encoding R53). -/
def slotOperand (slot : Fin 5) : BitVec 3 := BitVec.ofNat 3 slot.val

/-- A 15-byte frame whose last byte is the CRC of the first 14 (41_mux R79). -/
def validFrame (p : Params) (frame : Vector Byte 15) : Prop :=
  crc8Compute p (frame.toList.take 14) = frame[14]

/-- The carry-less product of a byte and the generator x^8 + poly, in 16 bits: the sum over GF(2) of
the generator shifted to every set bit (40_crc R70: the polynomial view of the update). -/
def timesGenerator (poly q : Byte) : BitVec 16 :=
  (List.range 8).foldl
    (fun acc k => if q.getLsbD k then acc ^^^ ((0x100#16 ||| poly.setWidth 16) <<< k) else acc) 0

/-- The script that presents received BGF frames one by one (42_serial R93). -/
def drainBgf (frames : List BgfMessage) : List Instr :=
  frames.flatMap fun m => loadRx [m.id, m.flag] ++ [.bgfRecv]

/-- The bounds of 10_state R31. -/
structure Bounds (s : State) : Prop where
  fuel : s.fuel.toNat ≤ 40
  rpm : s.rpm.toNat ≤ 10000
  expframe : 1 ≤ s.expframe.toNat ∧ s.expframe.toNat ≤ 100
  frameno : s.frameno = 0 ∨ (1 ≤ s.frameno.toNat ∧ s.frameno.toNat ≤ 100)
  ack : (memRead s 0x09).extractLsb' 5 3 = 0

/-- The values STATUS takes: 0x00 before the first command (70_reset R113), then the codes of
60_exceptions R98, 41_mux R81, 42_serial R91 and R92. -/
def legalStatus : List Byte := [0x00, 0x01, 0x02, 0x05, 0x06, 0x08, 0x10, 0x21, 0x41, 0x80]

/-- The invariant of the unit: admitted parameters (00_scope R7), the bounds (10_state R31), TXLEN
0, 2 or 10 (R22), a legal STATUS (R15), the buffers in canonical form, and every valid cache entry a
message of its own slot with a flag byte the unit produces (42_serial R90, R91). -/
structure Invariant (s : State) : Prop where
  params : s.params.valid = true
  bounds : Bounds s
  txlen : s.txlen = 0 ∨ s.txlen = 2 ∨ s.txlen = 10
  status : s.status ∈ legalStatus
  mem : s.mem.wf = true
  cache : ∀ (slot : Fin 5) (msg : BgfMessage), s.cache[slot] = some msg →
    msg.id = s.params.bgfId[slot] ∧
      (if s.params.bgfFlagFieldIsId then msg.flag = msg.id else msg.flag = 0 ∨ msg.flag = 1)

end Sys2Proof.Machine
end

