-- ==== Sys2Proof/Certificates/Slice0/Obligations.lean ====
section
/-! DEFINITION. The statements for the provers. -/

open Sys2Proof Sys2Proof.Machine

/-! ### Encodings -/

/-- Decoding the encoding of a well-formed instruction gives it back, every operand at every value
(30_encoding R55, R56, R65). -/
def Obligations.DecodeOfEncodeGivesInstruction : Prop :=
  ∀ i : Instr, WellFormed i → decodeAccess (encode i) = .instr i

/-- An access that decodes is the encoding of the well-formed instruction it decodes to: no two
accesses stand for one instruction and no bit of an access is dropped. -/
def Obligations.EncodeOfDecodeGivesAccess : Prop :=
  ∀ (b : BusAccess) (i : Instr), decodeAccess b = .instr i → WellFormed i ∧ encode i = b

/-- 30_encoding R57: the bytes that decode to a reserved code are exactly the four ranges, and
they are 240. -/
def Obligations.ReservedCodesAreTheFourRanges : Prop :=
  (∀ c : Byte, decodeAccess (.write 0x00 [c]) = .instr (.reserved c) ↔
      (0x04 ≤ c.toNat ∧ c.toNat ≤ 0x0F) ∨ (0x12 ≤ c.toNat ∧ c.toNat ≤ 0x1F) ∨
        (0x21 ≤ c.toNat ∧ c.toNat ≤ 0x2F) ∨ 0x39 ≤ c.toNat) ∧
    ((List.range 256).filter fun n =>
      decodeAccess (.write 0x00 [BitVec.ofNat 8 n]) = .instr (.reserved (BitVec.ofNat 8 n))).length
        = 240 ∧
    ∀ (c : Byte) (s : State), decodeAccess (.write 0x00 [c]) = .instr (.reserved c) →
      exec (.reserved c) s = .next { s with status := 0x80 }

/-- 30_encoding R53: the three low bits of a BGF.SEND byte are its slot, all eight values; the
values 5, 6 and 7 raise IdError. -/
def Obligations.SlotFieldIsTheLowThreeBits : Prop :=
  (∀ c : Byte, c.toNat / 8 = 0b00110 →
    ∃ slot : BitVec 3, decodeAccess (.write 0x00 [c]) = .instr (.bgfSend slot) ∧
      slot.toNat = c.toNat % 8) ∧
    ∀ (slot : BitVec 3) (s : State), 5 ≤ slot.toNat →
      ∃ t, exec (.bgfSend slot) s = .next t ∧ t.status = 0x10

/-- Words written out from the encodings of 30_encoding R55 decode to their instructions. -/
def Obligations.WrittenOutWordsDecode : Prop :=
  decodeAccess (.write 0x00 [0b00000000]) = .instr .nop ∧
  decodeAccess (.write 0x00 [0b00000001]) = .instr .crcInit ∧
  decodeAccess (.write 0x00 [0b00010000]) = .instr .muxDec ∧
  decodeAccess (.write 0x00 [0b00100000]) = .instr .comDec ∧
  decodeAccess (.write 0x00 [0b00110100]) = .instr (.bgfSend 4) ∧
  decodeAccess (.write 0x00 [0b00111000]) = .instr .bgfRecv ∧
  decodeAccess (.write 0x00 [0b10011001]) = .instr (.reserved 0x99) ∧
  decodeAccess (.write 0x03 [0x31]) = .instr (.crcUpd 0x31) ∧
  decodeAccess (.write 0x38 [0x29]) = .instr (.wr 0x38 0x29) ∧
  decodeAccess (.read 0x02 1) = .instr (.rd 0x02)

/-! ### The step -/

/-- A step runs the decoded instruction: when the next host input is an access that decodes to `i`,
the step is `exec i` at the state with that input taken from the queue. -/
def Obligations.StepRunsDecodedInstruction : Prop :=
  ∀ (s : State) (b : BusAccess) (rest : List HostInput) (i : Instr),
    s.params.valid = true → s.pending = .access b :: rest → decodeAccess b = .instr i →
      step s = exec i { s with pending := rest }

/-- 20_memory R42: a 1-byte access at any address is decoded, and an access of any other width is
refused. -/
def Obligations.OnlyOneByteAccessesAreTaken : Prop :=
  (∀ b : BusAccess, b.width = 1 → ∃ i, decodeAccess b = .instr i) ∧
    ∀ (s : State) (b : BusAccess) (rest : List HostInput),
      s.params.valid = true → s.pending = .access b :: rest → b.width ≠ 1 →
        step s = .refused (.accessWidth b.width)

/-- THE MODEL'S CHOICE (log entries 3, 4, 5 and 6; 60_exceptions R111, 92 D50): a step with an empty
queue holds the state, and a reset takes only itself from the queue and keeps the parameters and the
byte the host last read. -/
def Obligations.IdleAndResetKeepTheHostSide : Prop :=
  ∀ s : State, s.params.valid = true →
    (s.pending = [] → step s = .next s) ∧
    ∀ rest : List HostInput, s.pending = .reset :: rest →
      ∃ t, step s = .next t ∧ t.params = s.params ∧ t.pending = rest ∧ t.readData = s.readData

/-- A parameter set is refused exactly when it breaks one of the constraints of 00_scope R7; that the
step refuses it at once, whatever is pending, is the model's choice (log entry 2). -/
def Obligations.BadParameterSetsAreRefused : Prop :=
  ∀ s : State, step s = .refused .parameterSet ↔
    (s.params.crcPoly.getLsbD 0 = false ∨
      (∃ n ∈ [s.params.tyreBit, s.params.brakesBit, s.params.battDischBit, s.params.battKoBit,
        s.params.motorBitA, s.params.motorBitB, s.params.motorBitC], 7 < n) ∨
      s.params.tyreBit = s.params.brakesBit ∨ s.params.battDischBit = s.params.battKoBit ∨
      s.params.motorBitA = s.params.motorBitB ∨ s.params.motorBitA = s.params.motorBitC ∨
      s.params.motorBitB = s.params.motorBitC ∨
      ∃ i j : Fin 5, i ≠ j ∧ s.params.bgfId[i] = s.params.bgfId[j])

/-- 70_reset R112: when reset is asserted, every register, buffer byte and cache entry takes its
reset value, all together, of the unit's own parameters. -/
def Obligations.ResetGivesEveryResetValue : Prop :=
  ∀ (s : State) (rest : List HostInput), s.params.valid = true → s.pending = .reset :: rest →
    ∃ t, step s = .next t ∧
      (∀ a : Addr, memRead t a =
        if a = 0x02 then s.params.crcInit else if a = 0x06 then 0x01 else 0x00) ∧
      ∀ slot : Fin 5, t.cache[slot] = none

/-- Issuing a script and stepping once per access gives what performing its instructions in order
gives (20_memory R43, R46): every statement about `exec` or `runScript` reaches the steps. The queue
that holds the issued accesses is the model's own (log entry 3). -/
def Obligations.StepsRunIssuedScript : Prop :=
  ∀ (script : List Instr) (rest : List HostInput) (s : State),
    s.params.valid = true → (∀ i ∈ script, WellFormed i) →
      Host.Core.run Sys2Proof.core script.length { s with pending := hostIssue script ++ rest } =
        runScript script { s with pending := rest }

/-! ### Invariants -/

/-- The invariant holds at reset, for every admitted parameter set. -/
def Obligations.ResetSatisfiesInvariant : Prop :=
  ∀ p : Params, p.valid = true → Invariant (State.resetWith p)

/-- Every step keeps the invariant. -/
def Obligations.StepKeepsInvariant : Prop :=
  ∀ s t : State, Invariant s → step s = .next t → Invariant t

/-- 10_state R31: the bounds hold in every reachable state, whatever the host issues and however
often reset is asserted; FRAMENO leaves 0 with an accepted frame whose number is in bound, and no
access brings it back to 0. -/
def Obligations.BoundsHoldInReachableStates : Prop :=
  (∀ (p : Params) (inputs : List HostInput) (k : Nat) (t : State), p.valid = true →
      Host.Core.run Sys2Proof.core k { State.resetWith p with pending := inputs } = .next t →
        Bounds t) ∧
    (∀ (i : Instr) (s t : State), exec i s = .next t → s.frameno ≠ 0 → t.frameno ≠ 0) ∧
    ∀ s : State, s.rxlen = 15 → crc8Compute s.params (rxShown s 14) = rxAt s 14 →
      1 ≤ (rxAt s 0).toNat → (rxAt s 0).toNat ≤ 100 →
        ∃ t, exec .muxDec s = .next t ∧ t.frameno = rxAt s 0 ∧ t.frameno ≠ 0

/-! ### Host accesses -/

/-- 20_memory R36 over the map of 10_state R13: what a host read of every address returns, that the
read changes nothing but the byte handed to the host, and that a second read returns the same byte;
multi-byte registers are big-endian (20_memory R40). -/
def Obligations.ReadsShowTheRegisterMap : Prop :=
  ∀ s : State,
    readsAs s 0x00 0x00 ∧ readsAs s 0x01 s.status ∧ readsAs s 0x02 s.crc ∧ readsAs s 0x03 0x00 ∧
    readsAs s 0x04 s.rxlen ∧ readsAs s 0x05 s.txlen ∧ readsAs s 0x06 s.expframe ∧
    readsAs s 0x07 s.flags ∧ readsAs s 0x08 s.cmds ∧ readsAs s 0x09 (s.ack.setWidth 8) ∧
    readsAs s 0x0A s.errcnt ∧ readsAs s 0x0B s.bgfRxid ∧ readsAs s 0x0C s.bgfRxflag ∧
    (∀ a : Addr, 0x0D ≤ a → a ≤ 0x0F → readsAs s a 0x00) ∧
    (∀ i < 32, readsAs s (BitVec.ofNat 8 (0x10 + i)) (s.mem.read (0x10 + i))) ∧
    readsAs s 0x30 s.frameno ∧
    readsAs s 0x31 (s.dist.extractLsb' 24 8) ∧ readsAs s 0x32 (s.dist.extractLsb' 16 8) ∧
    readsAs s 0x33 (s.dist.extractLsb' 8 8) ∧ readsAs s 0x34 (s.dist.extractLsb' 0 8) ∧
    readsAs s 0x35 s.speed ∧ readsAs s 0x36 s.chassis ∧ readsAs s 0x37 s.motor ∧
    readsAs s 0x38 s.fuel ∧ readsAs s 0x39 (s.rpm.extractLsb' 8 8) ∧
    readsAs s 0x3A (s.rpm.extractLsb' 0 8) ∧ readsAs s 0x3B s.batt ∧ readsAs s 0x3C s.lastcrc ∧
    (∀ a : Addr, 0x3D ≤ a → readsAs s a 0x00) ∧
    ∀ a : Addr, ∃ t, exec (.rd a) s = .next t ∧ exec (.rd a) t = .next t

/-- Every read completes, shows its byte, changes no state a read shows, and a second read of the
address returns the same byte (20_memory R36, R38). -/
def Obligations.ReadsHaveNoSideEffect : Prop :=
  ∀ (s : State) (a : Addr), ∃ t, exec (.rd a) s = .next t ∧ t.readData = some (memRead s a) ∧
    (∀ b, memRead t b = memRead s b) ∧ t = { s with readData := t.readData } ∧
    exec (.rd a) t = .next t

/-- A host write at an RW address stores the byte there; every other address reads as before, and
nothing that no read shows changes (20_memory R37). -/
def Obligations.PlainWritesStoreTheirByte : Prop :=
  ∀ (s : State) (a : Addr) (v : Byte), storeAddr a →
    ∃ t, exec (.wr a v) s = .next t ∧ memRead t a = v ∧ sameReadsOutside [a] s t ∧ sameHidden s t

/-- Host writes to read-only registers and reserved addresses have no effect (20_memory R37). -/
def Obligations.DeadWritesChangeNothing : Prop :=
  ∀ (s : State) (a : Addr) (v : Byte), deadAddr a → exec (.wr a v) s = .next s

/-- 10_state R30: a write to a bounded register, by the host or by MUX.DEC, that would leave its
bound is ignored, and no status reports it. -/
def Obligations.BoundedRegistersRejectSilently : Prop :=
  ∀ (s : State) (v : Byte),
    exec (.wr 0x39 v) s = .next { s with
      rpm := if v.toNat * 256 + s.rpm.toNat % 256 ≤ 10000
        then BitVec.ofNat 16 (v.toNat * 256 + s.rpm.toNat % 256) else s.rpm } ∧
    exec (.wr 0x3A v) s = .next { s with
      rpm := if s.rpm.toNat / 256 * 256 + v.toNat ≤ 10000
        then BitVec.ofNat 16 (s.rpm.toNat / 256 * 256 + v.toNat) else s.rpm } ∧
    exec (.wr 0x38 v) s = .next { s with fuel := if v.toNat ≤ 40 then v else s.fuel } ∧
    exec (.wr 0x30 v) s = .next { s with
      frameno := if 1 ≤ v.toNat ∧ v.toNat ≤ 100 then v else s.frameno } ∧
    exec (.wr 0x06 v) s = .next { s with
      expframe := if 1 ≤ v.toNat ∧ v.toNat ≤ 100 then v else s.expframe } ∧
    (s.rxlen = 15 → crc8Compute s.params (rxShown s 14) = rxAt s 14 →
      ∃ t, exec .muxDec s = .next t ∧
        (100 < (rxAt s 0).toNat ∨ rxAt s 0 = 0 → t.frameno = s.frameno) ∧
        (40 < (rxAt s 8).toNat → t.fuel = s.fuel) ∧
        (10000 < be32 (rxAt s 9) (rxAt s 10) (rxAt s 11) (rxAt s 12) → t.rpm = s.rpm) ∧
        (t.status = 0x01 ∨ t.status = 0x05))

/-- 70_reset R119: writing the low byte 0, then the high byte, then the low byte sets any RPM target
within the bound from any RPM within the bound; and the rule's example of a rejected high byte. -/
def Obligations.SafeRpmSequenceSetsAnyTarget : Prop :=
  (∀ (s : State) (h l : Byte), s.rpm.toNat ≤ 10000 → h.toNat * 256 + l.toNat ≤ 10000 →
      runScript [.wr 0x3A 0x00, .wr 0x39 h, .wr 0x3A l] s =
        .next { s with rpm := BitVec.ofNat 16 (h.toNat * 256 + l.toNat) }) ∧
    ∀ s : State, s.rpm = 0x00FF → exec (.wr 0x39 0x27) s = .next s

/-- 10_state R26: the host's write clears exactly the acknowledgements written as 1, bits 7..5 read
0, a BGF.RECV that acknowledges sets its slot's bit, and nothing else changes ACK: a BGF.RECV that
changes it has received the cached message of the slot its id names, sets that slot's bit, and
reports 0x41. -/
def Obligations.AckIsSetByEchoAndClearedByHost : Prop :=
  (∀ (s : State) (v : Byte), ∃ t, exec (.wr 0x09 v) s = .next t ∧ t = { s with ack := t.ack } ∧
      ∀ k < 8, (memRead t 0x09).getLsbD k =
        (decide (k < 5) && (memRead s 0x09).getLsbD k && !v.getLsbD k)) ∧
    (∀ s : State, (memRead s 0x09).extractLsb' 5 3 = 0) ∧
    (∀ s : State, s.params.valid = true → s.rxlen = 2 → ∀ slot : Fin 5,
      s.cache[slot] = some ⟨rxAt s 0, rxAt s 1⟩ → s.params.bgfId[slot] = rxAt s 0 →
        ∃ t, exec .bgfRecv s = .next t ∧
          ∀ k < 5, t.ack.getLsbD k = (s.ack.getLsbD k || decide (k = slot.val))) ∧
    (∀ s t : State, exec .bgfRecv s = .next t → t.ack ≠ s.ack →
      s.rxlen = 2 ∧ t.status = 0x41 ∧ ∃ slot : Fin 5,
        s.params.bgfId[slot] = rxAt s 0 ∧
        (s.params.valid = true → slotOf s.params (rxAt s 0) = some slot) ∧
        s.cache[slot] = some ⟨rxAt s 0, rxAt s 1⟩ ∧
        t.ack = s.ack ||| BitVec.ofNat 5 (2 ^ slot.val)) ∧
    ∀ (i : Instr) (s t : State), WellFormed i → exec i s = .next t →
      i ≠ .bgfRecv → (∀ v, i ≠ .wr 0x09 v) → t.ack = s.ack

/-- 10_state R14: a host write of a byte to CMD performs, in one step, the whole command whose code
the byte is, and CMD reads 0x00. (The write is taken from the queue of log entry 3.) -/
def Obligations.CmdWritePerformsItsCommand : Prop :=
  (∀ (s : State) (c : Byte) (rest : List HostInput),
      s.params.valid = true → s.pending = .access (.write 0x00 [c]) :: rest →
        ∃ i, decodeAccess (.write 0x00 [c]) = .instr i ∧ encode i = .write 0x00 [c] ∧
          step s = exec i { s with pending := rest }) ∧
    ∀ s : State, readsAs s 0x00 0x00

/-- 10_state R18: a host write of a byte to CRC_DATA updates CRC by it, in one step, and CRC_DATA
reads 0x00. (The write is taken from the queue of log entry 3.) -/
def Obligations.CrcDataWriteUpdatesCrc : Prop :=
  (∀ (s : State) (b : Byte) (rest : List HostInput),
      s.params.valid = true → s.pending = .access (.write 0x03 [b]) :: rest →
        step s = .next { s with pending := rest, crc := crc8Update s.params s.crc b }) ∧
    (∀ (s : State) (b : Byte), decodeAccess (.write 0x03 [b]) = .instr (.crcUpd b) ∧
      exec (.crcUpd b) s = .next { s with crc := crc8Update s.params s.crc b }) ∧
    ∀ s : State, readsAs s 0x03 0x00

/-- Reads have no side effect; a write to ACK or to any register but CMD and CRC_DATA is idempotent;
of two writes of one byte to CMD or to CRC_DATA each performs its command or its update, and some
such second write changes the state again (20_memory R38, R36, R37). (The writes of a byte twice are
two accesses in the queue of log entry 3.) -/
def Obligations.RegisterWritesAreIdempotent : Prop :=
  (∀ (s : State) (a : Addr), exec (.rd a) s = .next { s with readData := some (memRead s a) }) ∧
    (∀ (s t : State) (a : Addr) (v : Byte), a ≠ 0x00 → a ≠ 0x03 →
      exec (.wr a v) s = .next t → exec (.wr a v) t = .next t) ∧
    (∀ (s : State) (c : Byte) (i : Instr) (rest : List HostInput), s.params.valid = true →
      s.pending = .access (.write 0x00 [c]) :: .access (.write 0x00 [c]) :: rest →
      decodeAccess (.write 0x00 [c]) = .instr i →
        Host.Core.run Sys2Proof.core 2 s = runScript [i, i] { s with pending := rest }) ∧
    (∀ (s : State) (b : Byte) (rest : List HostInput), s.params.valid = true →
      s.pending = .access (.write 0x03 [b]) :: .access (.write 0x03 [b]) :: rest →
        Host.Core.run Sys2Proof.core 2 s = .next { s with
          pending := rest
          crc := crc8Update s.params (crc8Update s.params s.crc b) b }) ∧
    (∃ (s t u : State) (c : Byte) (i : Instr), decodeAccess (.write 0x00 [c]) = .instr i ∧
      exec i s = .next t ∧ exec i t = .next u ∧ u ≠ t) ∧
    ∃ (s t u : State) (b : Byte), exec (.crcUpd b) s = .next t ∧ exec (.crcUpd b) t = .next u ∧
      u ≠ t

/-! ### The CRC generator -/

/-- 40_crc R73: CRC.UPD updates CRC alone; when the byte equals CRC the result is 0x00; and the
rule's example at the default parameters. -/
def Obligations.CrcUpdUpdatesCrcAlone : Prop :=
  (∀ (s : State) (b : Byte), decodeAccess (.write 0x03 [b]) = .instr (.crcUpd b) ∧
      exec (.crcUpd b) s = .next { s with crc := crc8Update s.params s.crc b }) ∧
    (∀ s : State, exec (.crcUpd s.crc) s = .next { s with crc := 0x00 }) ∧
    ∀ s : State, s.params = Params.default → s.crc = 0x00 →
      exec (.crcUpd 0x01) s = .next { s with crc := 0x07 }

/-- 40_crc R74: CRC.INIT loads CRC_INIT, reports OK, changes nothing else, and is idempotent. -/
def Obligations.CrcInitLoadsInitialValue : Prop :=
  decodeAccess (.write 0x00 [0x01]) = .instr .crcInit ∧ ∀ s : State,
    exec .crcInit s = .next { s with crc := s.params.crcInit, status := 0x01 } ∧
      runScript [.crcInit, .crcInit] s = exec .crcInit s

/-- 40_crc R75: CRC.RX folds the first RXLEN bytes of RXBUF from CRC_INIT, or raises LenError when
RXLEN exceeds 16; with RXLEN 0 it gives CRC_INIT, and over a whole valid MUX frame 0x00. -/
def Obligations.CrcRxFoldsReceiveBuffer : Prop :=
  decodeAccess (.write 0x00 [0x02]) = .instr .crcRx ∧ ∀ s : State,
    (s.rxlen.toNat ≤ 16 → exec .crcRx s = .next { s with
      crc := (rxShown s s.rxlen.toNat).foldl (crc8Update s.params) s.params.crcInit
      status := 0x01 }) ∧
    (s.params.crcPoly.getLsbD 0 = true → s.rxlen = 15 →
      crc8Compute s.params (rxShown s 14) = rxAt s 14 →
        exec .crcRx s = .next { s with crc := 0x00, status := 0x01 }) ∧
    (s.rxlen = 0 → exec .crcRx s = .next { s with crc := s.params.crcInit, status := 0x01 }) ∧
    (16 < s.rxlen.toNat → exec .crcRx s = .next { s with status := 0x08 })

/-- 40_crc R76: CRC.TX folds the first TXLEN bytes of TXBUF from CRC_INIT and changes neither TXBUF
nor TXLEN; under the invariant TXLEN never exceeds 16, so it always completes so. -/
def Obligations.CrcTxFoldsTransmitBuffer : Prop :=
  decodeAccess (.write 0x00 [0x03]) = .instr .crcTx ∧
    (∀ s : State, s.txlen.toNat ≤ 16 → exec .crcTx s = .next { s with
      crc := (txShown s s.txlen.toNat).foldl (crc8Update s.params) s.params.crcInit
      status := 0x01 }) ∧
    (∀ s : State, 16 < s.txlen.toNat → exec .crcTx s = .next { s with status := 0x08 }) ∧
    ∀ s : State, Invariant s → s.txlen.toNat ≤ 16

/-- 40_crc R69: computing over a concatenation is computing over the first part and folding the
second; and a host that writes CRC.INIT and then every byte reads that value, whatever the split. -/
def Obligations.FoldLawHolds : Prop :=
  ∀ (p : Params) (xs ys : List Byte),
    crc8Compute p xs = xs.foldl (crc8Update p) p.crcInit ∧
    crc8Compute p (xs ++ ys) = ys.foldl (crc8Update p) (crc8Compute p xs) ∧
    ∀ s : State, s.params = p →
      runScript (.crcInit :: (crcBytes xs ++ crcBytes ys)) s =
        .next { s with crc := crc8Compute p (xs ++ ys), status := 0x01 }

/-- Loading bytes and running CRC.RX gives the CRC that feeding the same bytes gives (program P1 of
95; 40_crc R69, R75, 30_encoding R66). -/
def Obligations.LoadedBytesCrcEqualsFedBytes : Prop :=
  ∀ (s : State) (bytes : List Byte), bytes.length ≤ 16 →
    ∃ t u, runScript (loadRx bytes ++ [.crcRx]) s = .next t ∧
      runScript (.crcInit :: crcBytes bytes) s = .next u ∧ t.crc = u.crc ∧ t.status = 0x01

/-- The unreflected update is the remainder, by the generator x^8 + CRC_POLY, of the byte CRC xor b
multiplied by x^8 (40_crc R67, R70). -/
def Obligations.UpdateIsPolynomialRemainder : Prop :=
  ∀ (p : Params) (c b : Byte), p.crcReflect = false →
    ∃ q : Byte, (c ^^^ b).setWidth 16 <<< 8 =
      timesGenerator p.crcPoly q ^^^ (crc8Update p c b).setWidth 16

/-- The reflected update mirrors the unreflected one bit for bit (40_crc R67, R70). -/
def Obligations.ReflectedUpdateMirrorsUnreflected : Prop :=
  ∀ (p : Params) (c b : Byte),
    crc8Update { p with crcReflect := true } c b =
      rev8 (crc8Update { p with crcReflect := false } (rev8 c) (rev8 b))

/-- With CRC_POLY = 0x01 and no reflection the update is the plain XOR (40_crc R67). -/
def Obligations.PolyOneIsXorChecksum : Prop :=
  ∀ (p : Params) (c b : Byte), p.crcPoly = 0x01 → p.crcReflect = false →
    crc8Update p c b = c ^^^ b

/-- Every single-byte corruption of a valid frame, at every position, is detected exactly when CRC_POLY
has a constant term (40_crc R70), for every parameter set; a step refuses any other CRC_POLY, at once
and whatever is pending, which is the model's choice of the moment (log entry 2). -/
def Obligations.SingleByteCorruptionDetectedIffOddPoly : Prop :=
  (∀ s : State, s.params.crcPoly.getLsbD 0 = false → step s = .refused .parameterSet) ∧
  ∀ p : Params,
    (∀ (frame : Vector Byte 15) (k : Fin 15) (e : Byte), validFrame p frame → e ≠ 0 →
      ¬ validFrame p (frame.set k (frame[k] ^^^ e))) ↔ p.crcPoly.getLsbD 0 = true

/-- On the machine: a valid frame of which the host overwrites one byte by another value is reported
as CrcError, and only STATUS, EXPFRAME and that byte of RXBUF change (40_crc R70, 41_mux R81). -/
def Obligations.CorruptedFrameIsRejected : Prop :=
  ∀ (s : State) (k : Nat) (v : Byte), s.params.crcPoly.getLsbD 0 = true → s.rxlen = 15 →
    crc8Compute s.params (rxShown s 14) = rxAt s 14 → k < 15 → v ≠ rxAt s k →
      ∃ t, runScript [.wr (BitVec.ofNat 8 (0x10 + k)) v, .muxDec] s = .next t ∧
        (t.status = 0x02 ∨ t.status = 0x06) ∧ t.expframe = frameAfter s.expframe ∧
        t = { s with mem := t.mem, status := t.status, expframe := t.expframe } ∧
        rxAt t k = v ∧ sameReadsOutside [0x01, 0x06, BitVec.ofNat 8 (0x10 + k)] s t

/-- 40_crc R71: with a constant term, the update gives 0x00 exactly for the byte equal to CRC, a
sequence followed by its own CRC has CRC 0x00, and the frame in RXBUF is valid exactly when its 15
bytes have CRC 0x00. -/
def Obligations.ResidueOfValidFrameIsZero : Prop :=
  ∀ p : Params, p.crcPoly.getLsbD 0 = true →
    (∀ c b : Byte, crc8Update p c b = 0x00 ↔ b = c) ∧
    (∀ bytes : List Byte, crc8Compute p (bytes ++ [crc8Compute p bytes]) = 0x00) ∧
    ∀ s : State, s.params = p →
      (crc8Compute p (rxShown s 15) = 0x00 ↔ crc8Compute p (rxShown s 14) = rxAt s 14)

/-- 40_crc R72: the CRC is affine over GF(2), and linear when CRC_INIT is 0x00. -/
def Obligations.CrcIsAffine : Prop :=
  ∀ (p : Params) (xs ys : List Byte), xs.length = ys.length →
    crc8Compute p xs ^^^ crc8Compute p ys =
      crc8Compute p (List.zipWith (· ^^^ ·) xs ys) ^^^
        crc8Compute p (List.replicate xs.length 0x00) ∧
    (p.crcInit = 0x00 → crc8Compute p (List.replicate xs.length 0x00) = 0x00)

/-! ### The MUX codec -/

/-- 41_mux R78: a decode command whose RXLEN is not its frame's length raises LenError: STATUS is
0x08 and no other state changes. -/
def Obligations.DecodersRejectWrongLength : Prop :=
  ∀ s : State,
    (s.rxlen ≠ 15 → exec .muxDec s = .next { s with status := 0x08 }) ∧
    (s.rxlen ≠ 1 → exec .comDec s = .next { s with status := 0x08 }) ∧
    (s.rxlen ≠ 2 → exec .bgfRecv s = .next { s with status := 0x08 })

/-- 41_mux R80: on every delimited frame, whether or not its CRC matches, SEQ_WARN says whether the
leading byte differs from EXPFRAME, and EXPFRAME advances from its own value, 100 to 1. -/
def Obligations.SequenceCheckAlwaysAdvances : Prop :=
  ∀ s : State, s.rxlen = 15 →
    ∃ t, exec .muxDec s = .next t ∧
      (t.status.getLsbD 2 = true ↔ rxAt s 0 ≠ s.expframe) ∧
      t.expframe = if s.expframe = 100 then 1 else s.expframe + 1

/-- 41_mux R81, R79: what MUX.DEC does in its three cases, every register named (CRC and the buffers
among those kept); and a second decode of the same buffer, which warns when the first did not, and
does not when the frame was one ahead. -/
def Obligations.MuxDecValidatesAndUnpacks : Prop :=
  decodeAccess (.write 0x00 [0x10]) = .instr .muxDec ∧ ∀ s : State,
    (s.rxlen ≠ 15 → exec .muxDec s = .next { s with status := 0x08 }) ∧
    (s.rxlen = 15 → crc8Compute s.params (rxShown s 14) ≠ rxAt s 14 →
      exec .muxDec s = .next { s with
        expframe := frameAfter s.expframe
        status := if rxAt s 0 = s.expframe then 0x02 else 0x06 }) ∧
    (s.rxlen = 15 → crc8Compute s.params (rxShown s 14) = rxAt s 14 →
      exec .muxDec s = .next { s with
        expframe := frameAfter s.expframe
        frameno := if 1 ≤ (rxAt s 0).toNat ∧ (rxAt s 0).toNat ≤ 100 then rxAt s 0 else s.frameno
        dist := rxAt s 1 ++ rxAt s 2 ++ rxAt s 3 ++ rxAt s 4
        speed := rxAt s 5
        chassis := rxAt s 6
        motor := rxAt s 7
        fuel := if (rxAt s 8).toNat ≤ 40 then rxAt s 8 else s.fuel
        rpm := if be32 (rxAt s 9) (rxAt s 10) (rxAt s 11) (rxAt s 12) ≤ 10000
          then BitVec.ofNat 16 (be32 (rxAt s 9) (rxAt s 10) (rxAt s 11) (rxAt s 12)) else s.rpm
        batt := rxAt s 13
        lastcrc := rxAt s 14
        status := if rxAt s 0 = s.expframe then 0x01 else 0x05 }) ∧
    (s.rxlen = 15 → ∃ t u, exec .muxDec s = .next t ∧ exec .muxDec t = .next u ∧
      u.expframe = frameAfter (frameAfter s.expframe) ∧
      (t.status.getLsbD 2 = false → u.status.getLsbD 2 = true) ∧
      (rxAt s 0 = frameAfter s.expframe →
        t.status.getLsbD 2 = true ∧ u.status.getLsbD 2 = false))

/-- 41_mux R87: MUX.ENC packs the outbound frame of 30_encoding R61 and R62 into TXBUF[0..9], sets
TXLEN to 10 and STATUS to 0x01, in every state; every other address reads as before. The percentage
byte is stated for the fuel levels R31 admits. -/
def Obligations.MuxEncPacksOutboundFrame : Prop :=
  decodeAccess (.write 0x00 [0x11]) = .instr .muxEnc ∧ ∀ s : State, ∃ t, exec .muxEnc s = .next t ∧
    t = { s with mem := t.mem, txlen := 10, status := 0x01 } ∧
    (∀ k < 8, (txAt t 0).getLsbD (if s.params.outMsbFirst then 7 - k else k) =
      [s.flags.getLsbD 6, s.flags.getLsbD 5, s.flags.getLsbD 4,
        decide (s.fuel.toNat * 100 / 40 < 5), decide (s.motor ≠ 0),
        s.chassis.getLsbD s.params.tyreBit, false,
        s.batt.getLsbD s.params.battDischBit].getD k false) ∧
    (∀ k < 8, (txAt t 1).getLsbD (if s.params.outMsbFirst then 7 - k else k) =
      [s.flags.getLsbD 7, s.batt.getLsbD s.params.battKoBit, s.motor.getLsbD s.params.motorBitA,
        s.motor.getLsbD s.params.motorBitB, s.motor.getLsbD s.params.motorBitC,
        s.chassis.getLsbD s.params.brakesBit, s.flags.getLsbD 1, s.flags.getLsbD 0].getD k false) ∧
    txAt t 2 = s.dist.extractLsb' 24 8 ∧ txAt t 3 = s.dist.extractLsb' 16 8 ∧
    txAt t 4 = s.dist.extractLsb' 8 8 ∧ txAt t 5 = s.dist.extractLsb' 0 8 ∧
    txAt t 6 = s.speed ∧
    (s.fuel.toNat ≤ 40 → (txAt t 7).toNat = s.fuel.toNat * 100 / 40) ∧
    be16 (txAt t 8) (txAt t 9) = s.rpm.toNat / 10 ∧
    sameReadsOutside [0x01, 0x05, 0x20, 0x21, 0x22, 0x23, 0x24, 0x25, 0x26, 0x27, 0x28, 0x29] s t

/-- In every state within the bounds, the derived outbound quantities lie in their ranges, the fuel
flag says the percentage is below 5, which is FUEL at most 1, and the motor flag that any bit of
MOTOR is set (41_mux R83, R84, R85, R86), with the values R83 and R86 list. -/
def Obligations.DerivedOutboundQuantities : Prop :=
  ∀ s : State, Bounds s → ∃ t, exec .muxEnc s = .next t ∧
    (txAt t 7).toNat = s.fuel.toNat * 100 / 40 ∧ (txAt t 7).toNat ≤ 100 ∧
    be16 (txAt t 8) (txAt t 9) = s.rpm.toNat / 10 ∧ be16 (txAt t 8) (txAt t 9) ≤ 1000 ∧
    ((txAt t 0).getLsbD (if s.params.outMsbFirst then 4 else 3) = true ↔
      s.fuel.toNat * 100 / 40 < 5) ∧
    (s.fuel.toNat * 100 / 40 < 5 ↔ s.fuel.toNat ≤ 1) ∧
    ((txAt t 0).getLsbD (if s.params.outMsbFirst then 3 else 4) = true ↔ s.motor ≠ 0) ∧
    (∀ fp ∈ [(0, 0), (1, 2), (2, 5), (3, 7), (20, 50), (39, 97), (40, 100)],
      s.fuel.toNat = fp.1 → (txAt t 7).toNat = fp.2) ∧
    (∀ rq ∈ [(0, 0), (9, 0), (15, 1), (10000, 1000)],
      s.rpm.toNat = rq.1 → be16 (txAt t 8) (txAt t 9) = rq.2)

/-- MUX.ENC depends on neither STATUS, EXPFRAME nor LASTCRC (41_mux R87). -/
def Obligations.MuxEncIgnoresStatusAndSequence : Prop :=
  ∀ (s t : State) (x y z : Byte), exec .muxEnc s = .next t →
    exec .muxEnc { s with status := x, expframe := y, lastcrc := z } =
      .next { t with expframe := y, lastcrc := z }

/-- 41_mux R88: after an accepted MUX.DEC and accesses that write no telemetry register, MUX.ENC
sends back the received distance and speed, and the rescaled fuel and rpm where they are in bound. Any
access may stand between but a host write to a telemetry register and another accepted MUX.DEC; a
MUX.DEC that ends in LenError or CrcError may. -/
def Obligations.EncodeAfterDecodeReturnsTelemetry : Prop :=
  ∀ (s u v : State) (between : List Instr), muxAccepts s → exec .muxDec s = .next u →
    (∀ i ∈ between, WellFormed i) → keepsTelemetry between u → runScript between u = .next v →
      ∃ t, exec .muxEnc v = .next t ∧
        txAt t 2 = rxAt s 1 ∧ txAt t 3 = rxAt s 2 ∧ txAt t 4 = rxAt s 3 ∧ txAt t 5 = rxAt s 4 ∧
        txAt t 6 = rxAt s 5 ∧
        ((rxAt s 8).toNat ≤ 40 → (txAt t 7).toNat = (rxAt s 8).toNat * 100 / 40) ∧
        (be32 (rxAt s 9) (rxAt s 10) (rxAt s 11) (rxAt s 12) ≤ 10000 →
          be16 (txAt t 8) (txAt t 9) =
            be32 (rxAt s 9) (rxAt s 10) (rxAt s 11) (rxAt s 12) / 10)

/-! ### The serial codecs -/

/-- 42_serial R89: COM.DEC of a 1-byte frame stores the byte in CMDS, whatever it is; with any other
length CMDS and everything but STATUS are kept. -/
def Obligations.ComDecStoresCommandByte : Prop :=
  decodeAccess (.write 0x00 [0x20]) = .instr .comDec ∧ ∀ s : State,
    (s.rxlen = 1 → exec .comDec s = .next { s with cmds := rxAt s 0, status := 0x01 }) ∧
    (s.rxlen ≠ 1 → exec .comDec s = .next { s with status := 0x08 })

/-- 42_serial R91: BGF.SEND of slot 0..4 produces the message unless the cache holds it, then it is
suppressed; of 5..7 it raises IdError, counts it and clears TXLEN. -/
def Obligations.BgfSendProducesOrSuppresses : Prop :=
  (∀ (s : State) (slot : Fin 5),
      (s.cache[slot] = some ⟨s.params.bgfId[slot], slotFlag s slot⟩ →
        exec (.bgfSend (slotOperand slot)) s = .next { s with txlen := 0, status := 0x21 }) ∧
      (s.cache[slot] ≠ some ⟨s.params.bgfId[slot], slotFlag s slot⟩ →
        ∃ t, exec (.bgfSend (slotOperand slot)) s = .next t ∧
          t = { s with
            mem := t.mem
            txlen := 2
            cache := s.cache.set slot (some ⟨s.params.bgfId[slot], slotFlag s slot⟩)
            status := 0x01 } ∧
          txAt t 0 = s.params.bgfId[slot] ∧ txAt t 1 = slotFlag s slot ∧
          sameReadsOutside [0x01, 0x05, 0x20, 0x21] s t)) ∧
    ∀ (s : State) (operand : BitVec 3), 5 ≤ operand.toNat →
      exec (.bgfSend operand) s = .next { s with
        errcnt := BitVec.ofNat 8 ((s.errcnt.toNat + 1) % 256), txlen := 0, status := 0x10 }

/-- 42_serial R92: BGF.RECV in its four cases, for every admitted set of ids. -/
def Obligations.BgfRecvChecksIdAndEcho : Prop :=
  decodeAccess (.write 0x00 [0x38]) = .instr .bgfRecv ∧ ∀ s : State, s.params.valid = true →
    (s.rxlen ≠ 2 → exec .bgfRecv s = .next { s with status := 0x08 }) ∧
    (s.rxlen = 2 → (∀ slot : Fin 5, s.params.bgfId[slot] ≠ rxAt s 0) →
      exec .bgfRecv s = .next { s with
        errcnt := BitVec.ofNat 8 ((s.errcnt.toNat + 1) % 256), status := 0x10 }) ∧
    (s.rxlen = 2 → ∀ slot : Fin 5, s.params.bgfId[slot] = rxAt s 0 →
      (s.cache[slot] = some ⟨rxAt s 0, rxAt s 1⟩ →
        exec .bgfRecv s = .next { s with
          bgfRxid := rxAt s 0, bgfRxflag := rxAt s 1,
          ack := s.ack ||| BitVec.ofNat 5 (2 ^ slot.val), status := 0x41 }) ∧
      (s.cache[slot] ≠ some ⟨rxAt s 0, rxAt s 1⟩ →
        exec .bgfRecv s = .next { s with
          bgfRxid := rxAt s 0, bgfRxflag := rxAt s 1, status := 0x01 }))

/-- 42_serial R94: the five laws of sending, echoing, acknowledging and clearing, law 5 for units
that send the flag (BGF_FLAG_FIELD_IS_ID false). -/
def Obligations.BgfSendEchoClearLaws : Prop :=
  ∀ (s : State) (slot : Fin 5), s.params.valid = true →
    (∃ t, runScript [.bgfSend (slotOperand slot), .bgfSend (slotOperand slot)] s = .next t ∧
      t.status = 0x21 ∧ t.txlen = 0) ∧
    (∀ u, exec (.bgfSend (slotOperand slot)) s = .next u → u.status = 0x01 →
      ∃ v w x, runScript (loadRx [txAt u 0, txAt u 1] ++ [.bgfRecv]) u = .next v ∧
        v.ack.getLsbD slot.val = true ∧ v.status = 0x41 ∧
        exec .bgfRecv v = .next w ∧ w.ack = v.ack ∧ w.status = 0x41 ∧
        runScript (clrAck (BitVec.ofNat 8 (2 ^ slot.val))) w = .next x ∧
        x.ack.getLsbD slot.val = false) ∧
    (∀ u, exec (.bgfSend (slotOperand slot)) s = .next u → s.params.bgfFlagFieldIsId = false →
      ∀ flags : Byte, slotFlag { u with flags := flags } slot ≠ slotFlag u slot →
        ∃ v, runScript (setFlags flags ++ [.bgfSend (slotOperand slot)]) u = .next v ∧
          v.status = 0x01 ∧ v.txlen = 2)

/-- In a unit that copies the id into the flag field, every BGF.SEND of a slot after the first is
suppressed, whatever accesses the host makes between, other sends among them, until reset (the corner
case of 42_serial R91). -/
def Obligations.IdInFlagFieldSuppressesForever : Prop :=
  ∀ (s u : State) (slot : Fin 5) (between : List Instr), s.params.bgfFlagFieldIsId = true →
    exec (.bgfSend (slotOperand slot)) s = .next u → (∀ i ∈ between, WellFormed i) →
      ∃ v, runScript between u = .next v ∧ v.cache[slot] = u.cache[slot] ∧
        exec (.bgfSend (slotOperand slot)) v = .next { v with txlen := 0, status := 0x21 }

/-- 42_serial R93: after draining any number of frames, ACK is what it was or-ed with the bit of
every frame that matches the cache. -/
def Obligations.DrainedFramesOrTheirAckBits : Prop :=
  ∀ (frames : List BgfMessage) (s : State), s.params.valid = true →
    ∃ t, runScript (drainBgf frames) s = .next t ∧ t.cache = s.cache ∧
      ∀ slot : Fin 5, t.ack.getLsbD slot.val =
        (s.ack.getLsbD slot.val ||
          frames.any fun m => m.id == s.params.bgfId[slot] && s.cache[slot] == some m)

/-! ### Control and the whole machine -/

/-- 43_control R95: NOP changes nothing, STATUS included, and it is the only command that keeps
STATUS: every other command leaves some value of STATUS changed, whatever the rest of the state. -/
def Obligations.NopChangesNothing : Prop :=
  decodeAccess (.write 0x00 [0x00]) = .instr .nop ∧ (∀ s : State, exec .nop s = .next s) ∧
    ∀ (c : Byte) (i : Instr) (s : State), decodeAccess (.write 0x00 [c]) = .instr i → i ≠ .nop →
      ∃ (x : Byte) (t : State), exec i { s with status := x } = .next t ∧ t.status ≠ x

/-- 43_control R96: every reserved code sets STATUS to 0x80 and changes nothing else. -/
def Obligations.ReservedCodeOnlyReports : Prop :=
  ∀ (c : Byte) (s : State), reservedCode c = true →
    decodeAccess (.write 0x00 [c]) = .instr (.reserved c) ∧
      exec (.reserved c) s = .next { s with status := 0x80 }

/-- Every instruction completes in every state: no report is a trap, a halt or a refusal
(60_exceptions R99, R103, R104, 20_memory R45). -/
def Obligations.EveryInstructionCompletes : Prop :=
  ∀ (i : Instr) (s : State), ∃ t, exec i s = .next t

/-- 10_state R16: only commands write STATUS, NOP does not, and what a command writes does not
depend on the STATUS before it. -/
def Obligations.StatusIsPerCommandAndNotSticky : Prop :=
  ∀ (i : Instr) (s t : State), WellFormed i → exec i s = .next t →
    (isReportingCommand i = false → t.status = s.status) ∧
    (isReportingCommand i = true → t.status ∈ legalStatus ∧ t.status ≠ 0x00 ∧
      ∀ x : Byte, exec i { s with status := x } = .next t)

/-- 10_state R27: ERRCNT adds 1 modulo 256 at each BGF.SEND and BGF.RECV that raises IdError, takes
any byte the host writes, and changes at nothing else. -/
def Obligations.ErrcntCountsIdErrorsOnly : Prop :=
  ∀ (i : Instr) (s t : State), WellFormed i → exec i s = .next t →
    t.errcnt =
      match i with
      | .bgfSend _ | .bgfRecv =>
        if t.status = 0x10 then BitVec.ofNat 8 ((s.errcnt.toNat + 1) % 256) else s.errcnt
      | .wr a v => if a = 0x0A then v else s.errcnt
      | _ => s.errcnt

/-- Which instructions may change which state (10_state R17, R19, R20, R22, R23, R24, R25, R28, R29,
R32; 00_scope R6): everything else leaves it as it was. -/
def Obligations.OnlyTheNamedInstructionsWrite : Prop :=
  ∀ (i : Instr) (s t : State), WellFormed i → exec i s = .next t →
    t.params = s.params ∧ t.pending = s.pending ∧
    ((∀ a, i ≠ .rd a) → t.readData = s.readData) ∧
    ((∀ a v, i ≠ .wr a v) → t.rxlen = s.rxlen ∧ t.flags = s.flags ∧
      ∀ k < 16, rxAt t k = rxAt s k) ∧
    (i ≠ .comDec → t.cmds = s.cmds) ∧
    (i ≠ .bgfRecv → t.bgfRxid = s.bgfRxid ∧ t.bgfRxflag = s.bgfRxflag) ∧
    ((∀ slot, i ≠ .bgfSend slot) → t.cache = s.cache) ∧
    (i ≠ .muxEnc → (∀ slot, i ≠ .bgfSend slot) → t.txlen = s.txlen) ∧
    (i ≠ .muxEnc → (∀ slot, i ≠ .bgfSend slot) → (∀ a v, i ≠ .wr a v) →
      ∀ k < 16, txAt t k = txAt s k) ∧
    (i ≠ .muxDec → (∀ v, i ≠ .wr 0x06 v) → t.expframe = s.expframe) ∧
    (i ≠ .crcInit → i ≠ .crcRx → i ≠ .crcTx → (∀ b, i ≠ .crcUpd b) → (∀ v, i ≠ .wr 0x02 v) →
      t.crc = s.crc) ∧
    (i ≠ .muxDec → (∀ a v, i = .wr a v → ¬ telemetryAddr a) →
      t.frameno = s.frameno ∧ t.dist = s.dist ∧ t.speed = s.speed ∧ t.chassis = s.chassis ∧
      t.motor = s.motor ∧ t.fuel = s.fuel ∧ t.rpm = s.rpm ∧ t.batt = s.batt ∧
      t.lastcrc = s.lastcrc)

/-- From reset, CRC holds CRC_INIT, so feeding bytes without CRC.INIT gives their CRC and STATUS
stays 0x00: no command has run (70_reset R113). -/
def Obligations.CrcUpdMayStartAtReset : Prop :=
  ∀ (p : Params) (bytes : List Byte), runScript (crcBytes bytes) (State.resetWith p) =
    .next { State.resetWith p with crc := crc8Compute p bytes }

/-- THE MODEL'S CHOICE (log entry 12): the terms WR to CMD and WR to CRC_DATA, which no access decodes
to, mean what the accesses they spell mean (20_memory R37): the command, and CRC.UPD. -/
def Obligations.WrTermsAtWritePortsAgree : Prop :=
  (∀ (s : State) (c : Byte) (i : Instr), decodeAccess (.write 0x00 [c]) = .instr i →
      exec (.wr 0x00 c) s = exec i s) ∧
    ∀ (s : State) (b : Byte), exec (.wr 0x03 b) s = exec (.crcUpd b) s
end

