-- ==== Sys2Proof/Laws/Crc.lean ====
section
/-! SUPPORT. The CRC functions: linearity of the shift step, folds, and the shape of the update. -/

namespace Sys2Proof.Machine

/-- The shift step is linear over GF(2) (40_crc R70). -/
theorem crcShift_xor (p : Params) (x y : Byte) :
    crcShift p (x ^^^ y) = crcShift p x ^^^ crcShift p y := by
  unfold crcShift
  simp only [BitVec.getLsbD_xor, BitVec.shiftLeft_xor_distrib, BitVec.ushiftRight_xor_distrib]
  split
  · cases x.getLsbD 7 <;> cases y.getLsbD 7 <;> simp <;> ac_nf
    all_goals simp
  · cases x.getLsbD 0 <;> cases y.getLsbD 0 <;> simp <;> ac_nf
    all_goals simp

@[simp] theorem crcShift_zero (p : Params) : crcShift p 0 = 0 := by simp [crcShift]

theorem crcShifts_xor (p : Params) (n : Nat) (x y : Byte) :
    crcShifts p n (x ^^^ y) = crcShifts p n x ^^^ crcShifts p n y := by
  induction n generalizing x y with
  | zero => rfl
  | succ n ih => simp only [crcShifts, crcShift_xor, ih]

@[simp] theorem crcShifts_zero (p : Params) (n : Nat) : crcShifts p n 0 = 0 := by
  induction n with
  | zero => rfl
  | succ n ih => simp only [crcShifts, crcShift_zero, ih]

/-- The update depends on the accumulator and the byte only through their sum (40_crc R67). -/
theorem crc8Update_eq (p : Params) (c b : Byte) : crc8Update p c b = crcShifts p 8 (c ^^^ b) := rfl

/-- `crc8_compute` is the fold from CRC_INIT: the final XOR is 0x00 (40_crc R68). -/
theorem crc8Compute_eq (p : Params) (bytes : List Byte) :
    crc8Compute p bytes = bytes.foldl (crc8Update p) p.crcInit := by
  simp [crc8Compute, Config.crcXorOut]

end Sys2Proof.Machine
end

