-- ==== Sys2Proof/Laws/Decode.lean ====
section
/-! SUPPORT. What the decoder answers, case by case. -/

namespace Sys2Proof

@[simp] theorem decodeAccess_read (a : Addr) : decodeAccess (.read a 1) = .instr (.rd a) := rfl

@[simp] theorem decodeAccess_write (a : Addr) (v : Byte) :
    decodeAccess (.write a [v]) = .instr (decodeWrite a v) := rfl

@[simp] theorem decodeWrite_cmd (v : Byte) : decodeWrite 0#8 v = decodeCommand v := rfl

@[simp] theorem decodeWrite_crcData (v : Byte) : decodeWrite 3#8 v = .crcUpd v := rfl

theorem decodeWrite_other {a : Addr} (h0 : a ≠ 0x00) (h3 : a ≠ 0x03) (v : Byte) :
    decodeWrite a v = .wr a v := by
  rw [decodeWrite, if_neg h0, if_neg h3]

/-- The bytes 0x30..0x37 are BGF.SEND with the slot in the three low bits. -/
@[simp] theorem decodeCommand_bgfSend (slot : BitVec 3) :
    decodeCommand (48#8 + slot.setWidth 8) = .bgfSend slot := by
  revert slot; decide

/-- Every byte of the four reserved ranges decodes to the reserved code it is. -/
theorem decodeCommand_reserved : ∀ c : Byte, reservedCode c = true → decodeCommand c = .reserved c := by
  decide

/-- What a command byte decodes to: one of the nine commands with its code, or a reserved code. -/
theorem decodeCommand_cases (c : Byte) :
    (c = 0x00 ∧ decodeCommand c = .nop) ∨ (c = 0x01 ∧ decodeCommand c = .crcInit) ∨
    (c = 0x02 ∧ decodeCommand c = .crcRx) ∨ (c = 0x03 ∧ decodeCommand c = .crcTx) ∨
    (c = 0x10 ∧ decodeCommand c = .muxDec) ∨ (c = 0x11 ∧ decodeCommand c = .muxEnc) ∨
    (c = 0x20 ∧ decodeCommand c = .comDec) ∨
    (∃ slot : BitVec 3, c = 0x30 + slot.setWidth 8 ∧ decodeCommand c = .bgfSend slot) ∨
    (c = 0x38 ∧ decodeCommand c = .bgfRecv) ∨
    (reservedCode c = true ∧ decodeCommand c = .reserved c) := by
  revert c; decide

/-- An access that decodes is a 1-byte read or a 1-byte write. -/
theorem decodeAccess_cases {b : BusAccess} {i : Instr} (h : decodeAccess b = .instr i) :
    (∃ a, b = .read a 1 ∧ i = .rd a) ∨ ∃ a v, b = .write a [v] ∧ i = decodeWrite a v := by
  match b, h with
  | .read a w, h =>
    by_cases hw : w = 1
    · subst hw; exact .inl ⟨a, rfl, (Decoded.instr.inj h).symm⟩
    · simp [decodeAccess, hw] at h
  | .write a [], h => simp [decodeAccess] at h
  | .write a [v], h => exact .inr ⟨a, v, rfl, (Decoded.instr.inj h).symm⟩
  | .write a (_ :: _ :: _), h => simp [decodeAccess] at h

end Sys2Proof
end

