-- ==== Sys2Proof/Laws/Memory.lean ====
section
/-! SUPPORT. The laws of the buffer memory: read after write, the canonical form kept by every
operation, and equality of memories that read alike. -/

namespace Sys2Proof.Machine

@[simp] theorem memory_read_nil (a : Nat) : Memory.read [] a = memDefault := rfl

theorem memory_read_cons (k : Nat) (b : Byte) (m : Memory) (a : Nat) :
    Memory.read ((k, b) :: m) a = if k = a then b else Memory.read m a := rfl

theorem memory_read_erase (m : Memory) (a x : Nat) :
    (m.erase a).read x = if x = a then memDefault else m.read x := by
  induction m with
  | nil => simp [Memory.erase]
  | cons c m ih =>
    obtain ⟨k, b⟩ := c
    by_cases hk : k = a
    · subst hk
      simp only [Memory.erase, if_true, memory_read_cons, ih]
      by_cases hx : x = k <;> simp [hx, eq_comm]
    · simp only [Memory.erase, if_neg hk, memory_read_cons, ih]
      by_cases hx : x = a
      · subst hx; simp [hk]
      · simp [hx]

theorem memory_read_insert {m : Memory} {a : Nat} (h : ∀ c ∈ m, c.1 ≠ a) (v : Byte) (x : Nat) :
    (m.insert a v).read x = if x = a then v else m.read x := by
  induction m with
  | nil => simp [Memory.insert, memory_read_cons, eq_comm]
  | cons c m ih =>
    obtain ⟨k, b⟩ := c
    have hk : k ≠ a := h (k, b) (by simp)
    by_cases hlt : a < k
    · by_cases hx : x = a
      · subst hx; simp [Memory.insert, hlt, memory_read_cons]
      · simp only [Memory.insert, if_pos hlt, memory_read_cons, if_neg hx,
          if_neg fun e : a = x => hx e.symm]
    · simp only [Memory.insert, if_neg hlt, memory_read_cons,
        ih fun c hc => h c (List.mem_cons_of_mem _ hc)]
      by_cases hx : x = a
      · subst hx; simp [hk]
      · simp [hx]

theorem memory_erase_ne {m : Memory} {a : Nat} : ∀ c ∈ m.erase a, c.1 ≠ a := by
  induction m with
  | nil => simp [Memory.erase]
  | cons c m ih =>
    obtain ⟨k, b⟩ := c
    simp only [Memory.erase]
    split
    · exact ih
    · intro c hc
      rcases List.mem_cons.1 hc with rfl | hc
      · assumption
      · exact ih c hc

/-- Read after write, in any memory: the written cell reads the byte, every other cell as before. -/
@[simp] theorem memory_read_write (m : Memory) (a : Nat) (v : Byte) (x : Nat) :
    (m.write a v).read x = if x = a then v else m.read x := by
  unfold Memory.write
  split
  · rename_i hv; rw [memory_read_erase, hv]
  · rw [memory_read_insert memory_erase_ne, memory_read_erase]
    by_cases hx : x = a <;> simp [hx]

/-- Read after writing consecutive cells: the written range reads the bytes, every other cell as
before. -/
theorem memory_read_writeBytes (bs : List Byte) (m : Memory) (a x : Nat) :
    (m.writeBytes a bs).read x =
      if a ≤ x ∧ x < a + bs.length then bs.getD (x - a) 0 else m.read x := by
  induction bs generalizing m a with
  | nil => simp [Memory.writeBytes, show ¬(a ≤ x ∧ x < a) by omega]
  | cons b bs ih =>
    simp only [Memory.writeBytes, ih, memory_read_write, List.length_cons]
    by_cases h1 : a + 1 ≤ x ∧ x < a + 1 + bs.length
    · rw [if_pos h1, if_pos (by omega), show x - a = (x - (a + 1)) + 1 by omega,
        List.getD_cons_succ]
    · rw [if_neg h1]
      by_cases hx : x = a
      · subst hx; rw [if_pos (by omega : x ≤ x ∧ x < x + (bs.length + 1))]; simp
      · rw [if_neg hx, if_neg (by omega)]

theorem memory_wfFrom_mono {lo lo' : Nat} {m : Memory} (hl : lo' ≤ lo)
    (h : Memory.wfFrom lo m = true) : Memory.wfFrom lo' m = true := by
  cases m with
  | nil => rfl
  | cons c m =>
    obtain ⟨k, b⟩ := c
    simp only [Memory.wfFrom, Bool.and_eq_true, decide_eq_true_eq] at h ⊢
    exact ⟨⟨⟨by omega, h.1.1.2⟩, h.1.2⟩, h.2⟩

/-- A canonical memory from `lo` on reads the default below `lo`. -/
theorem memory_read_below {lo a : Nat} {m : Memory} (h : Memory.wfFrom lo m = true) (ha : a < lo) :
    Memory.read m a = memDefault := by
  induction m generalizing lo with
  | nil => rfl
  | cons c m ih =>
    obtain ⟨k, b⟩ := c
    simp only [Memory.wfFrom, Bool.and_eq_true, decide_eq_true_eq] at h
    rw [memory_read_cons, if_neg (by omega), ih h.2 (by omega)]

theorem memory_wfFrom_erase {lo : Nat} {m : Memory} (h : Memory.wfFrom lo m = true) (a : Nat) :
    Memory.wfFrom lo (m.erase a) = true := by
  induction m generalizing lo with
  | nil => rfl
  | cons c m ih =>
    obtain ⟨k, b⟩ := c
    simp only [Memory.wfFrom, Bool.and_eq_true, decide_eq_true_eq] at h
    simp only [Memory.erase]
    split
    · exact memory_wfFrom_mono (by omega) (ih h.2)
    · simp only [Memory.wfFrom, Bool.and_eq_true, decide_eq_true_eq]
      exact ⟨h.1, ih h.2⟩

theorem memory_wfFrom_insert {lo a : Nat} {m : Memory} (h : Memory.wfFrom lo m = true)
    (hne : ∀ c ∈ m, c.1 ≠ a) (hlo : lo ≤ a) (hhi : a < 0x30) {v : Byte} (hv : v ≠ memDefault) :
    Memory.wfFrom lo (m.insert a v) = true := by
  induction m generalizing lo with
  | nil => simp [Memory.insert, Memory.wfFrom, hlo, hhi, hv]
  | cons c m ih =>
    obtain ⟨k, b⟩ := c
    have hk : k ≠ a := hne (k, b) (by simp)
    simp only [Memory.wfFrom, Bool.and_eq_true, decide_eq_true_eq] at h
    simp only [Memory.insert]
    split
    · simp only [Memory.wfFrom, Bool.and_eq_true, decide_eq_true_eq, bne_iff_ne]
      exact ⟨⟨⟨hlo, hhi⟩, hv⟩, ⟨⟨by omega, h.1.1.2⟩, by simpa using h.1.2⟩, h.2⟩
    · simp only [Memory.wfFrom, Bool.and_eq_true, decide_eq_true_eq]
      exact ⟨h.1, ih h.2 (fun c hc => hne c (List.mem_cons_of_mem _ hc)) (by omega)⟩

/-- A write to a buffer cell keeps the canonical form. -/
theorem memory_wf_write {m : Memory} (h : m.wf = true) {a : Nat} (hlo : 0x10 ≤ a) (hhi : a < 0x30)
    (v : Byte) : (m.write a v).wf = true := by
  unfold Memory.write
  split
  · exact memory_wfFrom_erase h a
  · exact memory_wfFrom_insert (memory_wfFrom_erase h a) memory_erase_ne hlo hhi ‹_›

/-- Writing consecutive buffer cells keeps the canonical form. -/
theorem memory_wf_writeBytes {bs : List Byte} {m : Memory} (h : m.wf = true) {a : Nat}
    (hlo : 0x10 ≤ a) (hhi : a + bs.length ≤ 0x30) : (m.writeBytes a bs).wf = true := by
  induction bs generalizing m a with
  | nil => exact h
  | cons b bs ih =>
    simp only [List.length_cons] at hhi
    exact ih (memory_wf_write h hlo (by omega) b) (by omega) (by omega)

/-- Two canonical memories that read alike everywhere are the same data. -/
theorem memory_ext {lo : Nat} {m n : Memory} (hm : Memory.wfFrom lo m = true)
    (hn : Memory.wfFrom lo n = true) (h : ∀ a, Memory.read m a = Memory.read n a) : m = n := by
  induction m generalizing lo n with
  | nil =>
    cases n with
    | nil => rfl
    | cons c n =>
      obtain ⟨k, b⟩ := c
      have := h k
      simp_all [Memory.wfFrom, memory_read_cons]
  | cons c m ih =>
    obtain ⟨k, b⟩ := c
    simp only [Memory.wfFrom, Bool.and_eq_true, decide_eq_true_eq, bne_iff_ne] at hm
    cases n with
    | nil => have := h k; simp_all [memory_read_cons]
    | cons c' n =>
      obtain ⟨k', b'⟩ := c'
      simp only [Memory.wfFrom, Bool.and_eq_true, decide_eq_true_eq, bne_iff_ne] at hn
      have hk := h k
      have hk' := h k'
      simp only [memory_read_cons, if_true] at hk hk'
      have hkk : k = k' := by
        rcases Nat.lt_trichotomy k k' with hlt | heq | hgt
        · rw [if_neg (by omega), memory_read_below hn.2 (by omega)] at hk
          exact absurd hk hm.1.2
        · exact heq
        · rw [if_neg (by omega), memory_read_below hm.2 (by omega)] at hk'
          exact absurd hk'.symm hn.1.2
      subst hkk
      simp only [if_true] at hk
      subst hk
      congr 1
      refine ih hm.2 hn.2 fun a => ?_
      by_cases ha : a ≤ k
      · rw [memory_read_below hm.2 (by omega), memory_read_below hn.2 (by omega)]
      · have := h a
        simpa [memory_read_cons, show k ≠ a by omega] using this

end Sys2Proof.Machine
end

