-- ==== Sys2Proof/Laws/State.lean ====
section
/-! SUPPORT. One lemma per field per named update of the state, so that no proof unfolds a record
update. -/

namespace Sys2Proof.Machine
variable (s : State)


@[simp] theorem raiseReport_params (e : Report) (w : Byte) : (raiseReport e w s).params = s.params := rfl
@[simp] theorem raiseReport_status (e : Report) (w : Byte) : (raiseReport e w s).status = w ||| reportCode e := rfl
@[simp] theorem raiseReport_crc (e : Report) (w : Byte) : (raiseReport e w s).crc = s.crc := rfl
@[simp] theorem raiseReport_rxlen (e : Report) (w : Byte) : (raiseReport e w s).rxlen = s.rxlen := rfl
@[simp] theorem raiseReport_txlen (e : Report) (w : Byte) : (raiseReport e w s).txlen = s.txlen := rfl
@[simp] theorem raiseReport_expframe (e : Report) (w : Byte) : (raiseReport e w s).expframe = s.expframe := rfl
@[simp] theorem raiseReport_flags (e : Report) (w : Byte) : (raiseReport e w s).flags = s.flags := rfl
@[simp] theorem raiseReport_cmds (e : Report) (w : Byte) : (raiseReport e w s).cmds = s.cmds := rfl
@[simp] theorem raiseReport_ack (e : Report) (w : Byte) : (raiseReport e w s).ack = s.ack := rfl
@[simp] theorem raiseReport_errcnt (e : Report) (w : Byte) : (raiseReport e w s).errcnt = s.errcnt := rfl
@[simp] theorem raiseReport_bgfRxid (e : Report) (w : Byte) : (raiseReport e w s).bgfRxid = s.bgfRxid := rfl
@[simp] theorem raiseReport_bgfRxflag (e : Report) (w : Byte) : (raiseReport e w s).bgfRxflag = s.bgfRxflag := rfl
@[simp] theorem raiseReport_mem (e : Report) (w : Byte) : (raiseReport e w s).mem = s.mem := rfl
@[simp] theorem raiseReport_frameno (e : Report) (w : Byte) : (raiseReport e w s).frameno = s.frameno := rfl
@[simp] theorem raiseReport_dist (e : Report) (w : Byte) : (raiseReport e w s).dist = s.dist := rfl
@[simp] theorem raiseReport_speed (e : Report) (w : Byte) : (raiseReport e w s).speed = s.speed := rfl
@[simp] theorem raiseReport_chassis (e : Report) (w : Byte) : (raiseReport e w s).chassis = s.chassis := rfl
@[simp] theorem raiseReport_motor (e : Report) (w : Byte) : (raiseReport e w s).motor = s.motor := rfl
@[simp] theorem raiseReport_fuel (e : Report) (w : Byte) : (raiseReport e w s).fuel = s.fuel := rfl
@[simp] theorem raiseReport_rpm (e : Report) (w : Byte) : (raiseReport e w s).rpm = s.rpm := rfl
@[simp] theorem raiseReport_batt (e : Report) (w : Byte) : (raiseReport e w s).batt = s.batt := rfl
@[simp] theorem raiseReport_lastcrc (e : Report) (w : Byte) : (raiseReport e w s).lastcrc = s.lastcrc := rfl
@[simp] theorem raiseReport_cache (e : Report) (w : Byte) : (raiseReport e w s).cache = s.cache := rfl
@[simp] theorem raiseReport_pending (e : Report) (w : Byte) : (raiseReport e w s).pending = s.pending := rfl
@[simp] theorem raiseReport_readData (e : Report) (w : Byte) : (raiseReport e w s).readData = s.readData := rfl

@[simp] theorem complete_params (info : Byte) : (complete info s).params = s.params := rfl
@[simp] theorem complete_status (info : Byte) : (complete info s).status = info ||| statusOk := rfl
@[simp] theorem complete_crc (info : Byte) : (complete info s).crc = s.crc := rfl
@[simp] theorem complete_rxlen (info : Byte) : (complete info s).rxlen = s.rxlen := rfl
@[simp] theorem complete_txlen (info : Byte) : (complete info s).txlen = s.txlen := rfl
@[simp] theorem complete_expframe (info : Byte) : (complete info s).expframe = s.expframe := rfl
@[simp] theorem complete_flags (info : Byte) : (complete info s).flags = s.flags := rfl
@[simp] theorem complete_cmds (info : Byte) : (complete info s).cmds = s.cmds := rfl
@[simp] theorem complete_ack (info : Byte) : (complete info s).ack = s.ack := rfl
@[simp] theorem complete_errcnt (info : Byte) : (complete info s).errcnt = s.errcnt := rfl
@[simp] theorem complete_bgfRxid (info : Byte) : (complete info s).bgfRxid = s.bgfRxid := rfl
@[simp] theorem complete_bgfRxflag (info : Byte) : (complete info s).bgfRxflag = s.bgfRxflag := rfl
@[simp] theorem complete_mem (info : Byte) : (complete info s).mem = s.mem := rfl
@[simp] theorem complete_frameno (info : Byte) : (complete info s).frameno = s.frameno := rfl
@[simp] theorem complete_dist (info : Byte) : (complete info s).dist = s.dist := rfl
@[simp] theorem complete_speed (info : Byte) : (complete info s).speed = s.speed := rfl
@[simp] theorem complete_chassis (info : Byte) : (complete info s).chassis = s.chassis := rfl
@[simp] theorem complete_motor (info : Byte) : (complete info s).motor = s.motor := rfl
@[simp] theorem complete_fuel (info : Byte) : (complete info s).fuel = s.fuel := rfl
@[simp] theorem complete_rpm (info : Byte) : (complete info s).rpm = s.rpm := rfl
@[simp] theorem complete_batt (info : Byte) : (complete info s).batt = s.batt := rfl
@[simp] theorem complete_lastcrc (info : Byte) : (complete info s).lastcrc = s.lastcrc := rfl
@[simp] theorem complete_cache (info : Byte) : (complete info s).cache = s.cache := rfl
@[simp] theorem complete_pending (info : Byte) : (complete info s).pending = s.pending := rfl
@[simp] theorem complete_readData (info : Byte) : (complete info s).readData = s.readData := rfl

@[simp] theorem setCrc_params (v : Byte) : (setCrc v s).params = s.params := rfl
@[simp] theorem setCrc_status (v : Byte) : (setCrc v s).status = s.status := rfl
@[simp] theorem setCrc_crc (v : Byte) : (setCrc v s).crc = v := rfl
@[simp] theorem setCrc_rxlen (v : Byte) : (setCrc v s).rxlen = s.rxlen := rfl
@[simp] theorem setCrc_txlen (v : Byte) : (setCrc v s).txlen = s.txlen := rfl
@[simp] theorem setCrc_expframe (v : Byte) : (setCrc v s).expframe = s.expframe := rfl
@[simp] theorem setCrc_flags (v : Byte) : (setCrc v s).flags = s.flags := rfl
@[simp] theorem setCrc_cmds (v : Byte) : (setCrc v s).cmds = s.cmds := rfl
@[simp] theorem setCrc_ack (v : Byte) : (setCrc v s).ack = s.ack := rfl
@[simp] theorem setCrc_errcnt (v : Byte) : (setCrc v s).errcnt = s.errcnt := rfl
@[simp] theorem setCrc_bgfRxid (v : Byte) : (setCrc v s).bgfRxid = s.bgfRxid := rfl
@[simp] theorem setCrc_bgfRxflag (v : Byte) : (setCrc v s).bgfRxflag = s.bgfRxflag := rfl
@[simp] theorem setCrc_mem (v : Byte) : (setCrc v s).mem = s.mem := rfl
@[simp] theorem setCrc_frameno (v : Byte) : (setCrc v s).frameno = s.frameno := rfl
@[simp] theorem setCrc_dist (v : Byte) : (setCrc v s).dist = s.dist := rfl
@[simp] theorem setCrc_speed (v : Byte) : (setCrc v s).speed = s.speed := rfl
@[simp] theorem setCrc_chassis (v : Byte) : (setCrc v s).chassis = s.chassis := rfl
@[simp] theorem setCrc_motor (v : Byte) : (setCrc v s).motor = s.motor := rfl
@[simp] theorem setCrc_fuel (v : Byte) : (setCrc v s).fuel = s.fuel := rfl
@[simp] theorem setCrc_rpm (v : Byte) : (setCrc v s).rpm = s.rpm := rfl
@[simp] theorem setCrc_batt (v : Byte) : (setCrc v s).batt = s.batt := rfl
@[simp] theorem setCrc_lastcrc (v : Byte) : (setCrc v s).lastcrc = s.lastcrc := rfl
@[simp] theorem setCrc_cache (v : Byte) : (setCrc v s).cache = s.cache := rfl
@[simp] theorem setCrc_pending (v : Byte) : (setCrc v s).pending = s.pending := rfl
@[simp] theorem setCrc_readData (v : Byte) : (setCrc v s).readData = s.readData := rfl

@[simp] theorem feedCrc_params (b : Byte) : (feedCrc b s).params = s.params := rfl
@[simp] theorem feedCrc_status (b : Byte) : (feedCrc b s).status = s.status := rfl
@[simp] theorem feedCrc_crc (b : Byte) : (feedCrc b s).crc = crc8Update s.params s.crc b := rfl
@[simp] theorem feedCrc_rxlen (b : Byte) : (feedCrc b s).rxlen = s.rxlen := rfl
@[simp] theorem feedCrc_txlen (b : Byte) : (feedCrc b s).txlen = s.txlen := rfl
@[simp] theorem feedCrc_expframe (b : Byte) : (feedCrc b s).expframe = s.expframe := rfl
@[simp] theorem feedCrc_flags (b : Byte) : (feedCrc b s).flags = s.flags := rfl
@[simp] theorem feedCrc_cmds (b : Byte) : (feedCrc b s).cmds = s.cmds := rfl
@[simp] theorem feedCrc_ack (b : Byte) : (feedCrc b s).ack = s.ack := rfl
@[simp] theorem feedCrc_errcnt (b : Byte) : (feedCrc b s).errcnt = s.errcnt := rfl
@[simp] theorem feedCrc_bgfRxid (b : Byte) : (feedCrc b s).bgfRxid = s.bgfRxid := rfl
@[simp] theorem feedCrc_bgfRxflag (b : Byte) : (feedCrc b s).bgfRxflag = s.bgfRxflag := rfl
@[simp] theorem feedCrc_mem (b : Byte) : (feedCrc b s).mem = s.mem := rfl
@[simp] theorem feedCrc_frameno (b : Byte) : (feedCrc b s).frameno = s.frameno := rfl
@[simp] theorem feedCrc_dist (b : Byte) : (feedCrc b s).dist = s.dist := rfl
@[simp] theorem feedCrc_speed (b : Byte) : (feedCrc b s).speed = s.speed := rfl
@[simp] theorem feedCrc_chassis (b : Byte) : (feedCrc b s).chassis = s.chassis := rfl
@[simp] theorem feedCrc_motor (b : Byte) : (feedCrc b s).motor = s.motor := rfl
@[simp] theorem feedCrc_fuel (b : Byte) : (feedCrc b s).fuel = s.fuel := rfl
@[simp] theorem feedCrc_rpm (b : Byte) : (feedCrc b s).rpm = s.rpm := rfl
@[simp] theorem feedCrc_batt (b : Byte) : (feedCrc b s).batt = s.batt := rfl
@[simp] theorem feedCrc_lastcrc (b : Byte) : (feedCrc b s).lastcrc = s.lastcrc := rfl
@[simp] theorem feedCrc_cache (b : Byte) : (feedCrc b s).cache = s.cache := rfl
@[simp] theorem feedCrc_pending (b : Byte) : (feedCrc b s).pending = s.pending := rfl
@[simp] theorem feedCrc_readData (b : Byte) : (feedCrc b s).readData = s.readData := rfl

@[simp] theorem setFrameno_params (v : Byte) : (setFrameno v s).params = s.params := rfl
@[simp] theorem setFrameno_status (v : Byte) : (setFrameno v s).status = s.status := rfl
@[simp] theorem setFrameno_crc (v : Byte) : (setFrameno v s).crc = s.crc := rfl
@[simp] theorem setFrameno_rxlen (v : Byte) : (setFrameno v s).rxlen = s.rxlen := rfl
@[simp] theorem setFrameno_txlen (v : Byte) : (setFrameno v s).txlen = s.txlen := rfl
@[simp] theorem setFrameno_expframe (v : Byte) : (setFrameno v s).expframe = s.expframe := rfl
@[simp] theorem setFrameno_flags (v : Byte) : (setFrameno v s).flags = s.flags := rfl
@[simp] theorem setFrameno_cmds (v : Byte) : (setFrameno v s).cmds = s.cmds := rfl
@[simp] theorem setFrameno_ack (v : Byte) : (setFrameno v s).ack = s.ack := rfl
@[simp] theorem setFrameno_errcnt (v : Byte) : (setFrameno v s).errcnt = s.errcnt := rfl
@[simp] theorem setFrameno_bgfRxid (v : Byte) : (setFrameno v s).bgfRxid = s.bgfRxid := rfl
@[simp] theorem setFrameno_bgfRxflag (v : Byte) : (setFrameno v s).bgfRxflag = s.bgfRxflag := rfl
@[simp] theorem setFrameno_mem (v : Byte) : (setFrameno v s).mem = s.mem := rfl
@[simp] theorem setFrameno_frameno (v : Byte) : (setFrameno v s).frameno = if frameInBound v then v else s.frameno := rfl
@[simp] theorem setFrameno_dist (v : Byte) : (setFrameno v s).dist = s.dist := rfl
@[simp] theorem setFrameno_speed (v : Byte) : (setFrameno v s).speed = s.speed := rfl
@[simp] theorem setFrameno_chassis (v : Byte) : (setFrameno v s).chassis = s.chassis := rfl
@[simp] theorem setFrameno_motor (v : Byte) : (setFrameno v s).motor = s.motor := rfl
@[simp] theorem setFrameno_fuel (v : Byte) : (setFrameno v s).fuel = s.fuel := rfl
@[simp] theorem setFrameno_rpm (v : Byte) : (setFrameno v s).rpm = s.rpm := rfl
@[simp] theorem setFrameno_batt (v : Byte) : (setFrameno v s).batt = s.batt := rfl
@[simp] theorem setFrameno_lastcrc (v : Byte) : (setFrameno v s).lastcrc = s.lastcrc := rfl
@[simp] theorem setFrameno_cache (v : Byte) : (setFrameno v s).cache = s.cache := rfl
@[simp] theorem setFrameno_pending (v : Byte) : (setFrameno v s).pending = s.pending := rfl
@[simp] theorem setFrameno_readData (v : Byte) : (setFrameno v s).readData = s.readData := rfl

@[simp] theorem setExpframe_params (v : Byte) : (setExpframe v s).params = s.params := rfl
@[simp] theorem setExpframe_status (v : Byte) : (setExpframe v s).status = s.status := rfl
@[simp] theorem setExpframe_crc (v : Byte) : (setExpframe v s).crc = s.crc := rfl
@[simp] theorem setExpframe_rxlen (v : Byte) : (setExpframe v s).rxlen = s.rxlen := rfl
@[simp] theorem setExpframe_txlen (v : Byte) : (setExpframe v s).txlen = s.txlen := rfl
@[simp] theorem setExpframe_expframe (v : Byte) : (setExpframe v s).expframe = if frameInBound v then v else s.expframe := rfl
@[simp] theorem setExpframe_flags (v : Byte) : (setExpframe v s).flags = s.flags := rfl
@[simp] theorem setExpframe_cmds (v : Byte) : (setExpframe v s).cmds = s.cmds := rfl
@[simp] theorem setExpframe_ack (v : Byte) : (setExpframe v s).ack = s.ack := rfl
@[simp] theorem setExpframe_errcnt (v : Byte) : (setExpframe v s).errcnt = s.errcnt := rfl
@[simp] theorem setExpframe_bgfRxid (v : Byte) : (setExpframe v s).bgfRxid = s.bgfRxid := rfl
@[simp] theorem setExpframe_bgfRxflag (v : Byte) : (setExpframe v s).bgfRxflag = s.bgfRxflag := rfl
@[simp] theorem setExpframe_mem (v : Byte) : (setExpframe v s).mem = s.mem := rfl
@[simp] theorem setExpframe_frameno (v : Byte) : (setExpframe v s).frameno = s.frameno := rfl
@[simp] theorem setExpframe_dist (v : Byte) : (setExpframe v s).dist = s.dist := rfl
@[simp] theorem setExpframe_speed (v : Byte) : (setExpframe v s).speed = s.speed := rfl
@[simp] theorem setExpframe_chassis (v : Byte) : (setExpframe v s).chassis = s.chassis := rfl
@[simp] theorem setExpframe_motor (v : Byte) : (setExpframe v s).motor = s.motor := rfl
@[simp] theorem setExpframe_fuel (v : Byte) : (setExpframe v s).fuel = s.fuel := rfl
@[simp] theorem setExpframe_rpm (v : Byte) : (setExpframe v s).rpm = s.rpm := rfl
@[simp] theorem setExpframe_batt (v : Byte) : (setExpframe v s).batt = s.batt := rfl
@[simp] theorem setExpframe_lastcrc (v : Byte) : (setExpframe v s).lastcrc = s.lastcrc := rfl
@[simp] theorem setExpframe_cache (v : Byte) : (setExpframe v s).cache = s.cache := rfl
@[simp] theorem setExpframe_pending (v : Byte) : (setExpframe v s).pending = s.pending := rfl
@[simp] theorem setExpframe_readData (v : Byte) : (setExpframe v s).readData = s.readData := rfl

@[simp] theorem advanceExpframe_params : (advanceExpframe s).params = s.params := rfl
@[simp] theorem advanceExpframe_status : (advanceExpframe s).status = s.status := rfl
@[simp] theorem advanceExpframe_crc : (advanceExpframe s).crc = s.crc := rfl
@[simp] theorem advanceExpframe_rxlen : (advanceExpframe s).rxlen = s.rxlen := rfl
@[simp] theorem advanceExpframe_txlen : (advanceExpframe s).txlen = s.txlen := rfl
@[simp] theorem advanceExpframe_expframe : (advanceExpframe s).expframe = nextFrame s.expframe := rfl
@[simp] theorem advanceExpframe_flags : (advanceExpframe s).flags = s.flags := rfl
@[simp] theorem advanceExpframe_cmds : (advanceExpframe s).cmds = s.cmds := rfl
@[simp] theorem advanceExpframe_ack : (advanceExpframe s).ack = s.ack := rfl
@[simp] theorem advanceExpframe_errcnt : (advanceExpframe s).errcnt = s.errcnt := rfl
@[simp] theorem advanceExpframe_bgfRxid : (advanceExpframe s).bgfRxid = s.bgfRxid := rfl
@[simp] theorem advanceExpframe_bgfRxflag : (advanceExpframe s).bgfRxflag = s.bgfRxflag := rfl
@[simp] theorem advanceExpframe_mem : (advanceExpframe s).mem = s.mem := rfl
@[simp] theorem advanceExpframe_frameno : (advanceExpframe s).frameno = s.frameno := rfl
@[simp] theorem advanceExpframe_dist : (advanceExpframe s).dist = s.dist := rfl
@[simp] theorem advanceExpframe_speed : (advanceExpframe s).speed = s.speed := rfl
@[simp] theorem advanceExpframe_chassis : (advanceExpframe s).chassis = s.chassis := rfl
@[simp] theorem advanceExpframe_motor : (advanceExpframe s).motor = s.motor := rfl
@[simp] theorem advanceExpframe_fuel : (advanceExpframe s).fuel = s.fuel := rfl
@[simp] theorem advanceExpframe_rpm : (advanceExpframe s).rpm = s.rpm := rfl
@[simp] theorem advanceExpframe_batt : (advanceExpframe s).batt = s.batt := rfl
@[simp] theorem advanceExpframe_lastcrc : (advanceExpframe s).lastcrc = s.lastcrc := rfl
@[simp] theorem advanceExpframe_cache : (advanceExpframe s).cache = s.cache := rfl
@[simp] theorem advanceExpframe_pending : (advanceExpframe s).pending = s.pending := rfl
@[simp] theorem advanceExpframe_readData : (advanceExpframe s).readData = s.readData := rfl

@[simp] theorem setFuel_params (v : Byte) : (setFuel v s).params = s.params := rfl
@[simp] theorem setFuel_status (v : Byte) : (setFuel v s).status = s.status := rfl
@[simp] theorem setFuel_crc (v : Byte) : (setFuel v s).crc = s.crc := rfl
@[simp] theorem setFuel_rxlen (v : Byte) : (setFuel v s).rxlen = s.rxlen := rfl
@[simp] theorem setFuel_txlen (v : Byte) : (setFuel v s).txlen = s.txlen := rfl
@[simp] theorem setFuel_expframe (v : Byte) : (setFuel v s).expframe = s.expframe := rfl
@[simp] theorem setFuel_flags (v : Byte) : (setFuel v s).flags = s.flags := rfl
@[simp] theorem setFuel_cmds (v : Byte) : (setFuel v s).cmds = s.cmds := rfl
@[simp] theorem setFuel_ack (v : Byte) : (setFuel v s).ack = s.ack := rfl
@[simp] theorem setFuel_errcnt (v : Byte) : (setFuel v s).errcnt = s.errcnt := rfl
@[simp] theorem setFuel_bgfRxid (v : Byte) : (setFuel v s).bgfRxid = s.bgfRxid := rfl
@[simp] theorem setFuel_bgfRxflag (v : Byte) : (setFuel v s).bgfRxflag = s.bgfRxflag := rfl
@[simp] theorem setFuel_mem (v : Byte) : (setFuel v s).mem = s.mem := rfl
@[simp] theorem setFuel_frameno (v : Byte) : (setFuel v s).frameno = s.frameno := rfl
@[simp] theorem setFuel_dist (v : Byte) : (setFuel v s).dist = s.dist := rfl
@[simp] theorem setFuel_speed (v : Byte) : (setFuel v s).speed = s.speed := rfl
@[simp] theorem setFuel_chassis (v : Byte) : (setFuel v s).chassis = s.chassis := rfl
@[simp] theorem setFuel_motor (v : Byte) : (setFuel v s).motor = s.motor := rfl
@[simp] theorem setFuel_fuel (v : Byte) : (setFuel v s).fuel = if fuelInBound v then v else s.fuel := rfl
@[simp] theorem setFuel_rpm (v : Byte) : (setFuel v s).rpm = s.rpm := rfl
@[simp] theorem setFuel_batt (v : Byte) : (setFuel v s).batt = s.batt := rfl
@[simp] theorem setFuel_lastcrc (v : Byte) : (setFuel v s).lastcrc = s.lastcrc := rfl
@[simp] theorem setFuel_cache (v : Byte) : (setFuel v s).cache = s.cache := rfl
@[simp] theorem setFuel_pending (v : Byte) : (setFuel v s).pending = s.pending := rfl
@[simp] theorem setFuel_readData (v : Byte) : (setFuel v s).readData = s.readData := rfl

@[simp] theorem setRpm_params (n : Nat) : (setRpm n s).params = s.params := rfl
@[simp] theorem setRpm_status (n : Nat) : (setRpm n s).status = s.status := rfl
@[simp] theorem setRpm_crc (n : Nat) : (setRpm n s).crc = s.crc := rfl
@[simp] theorem setRpm_rxlen (n : Nat) : (setRpm n s).rxlen = s.rxlen := rfl
@[simp] theorem setRpm_txlen (n : Nat) : (setRpm n s).txlen = s.txlen := rfl
@[simp] theorem setRpm_expframe (n : Nat) : (setRpm n s).expframe = s.expframe := rfl
@[simp] theorem setRpm_flags (n : Nat) : (setRpm n s).flags = s.flags := rfl
@[simp] theorem setRpm_cmds (n : Nat) : (setRpm n s).cmds = s.cmds := rfl
@[simp] theorem setRpm_ack (n : Nat) : (setRpm n s).ack = s.ack := rfl
@[simp] theorem setRpm_errcnt (n : Nat) : (setRpm n s).errcnt = s.errcnt := rfl
@[simp] theorem setRpm_bgfRxid (n : Nat) : (setRpm n s).bgfRxid = s.bgfRxid := rfl
@[simp] theorem setRpm_bgfRxflag (n : Nat) : (setRpm n s).bgfRxflag = s.bgfRxflag := rfl
@[simp] theorem setRpm_mem (n : Nat) : (setRpm n s).mem = s.mem := rfl
@[simp] theorem setRpm_frameno (n : Nat) : (setRpm n s).frameno = s.frameno := rfl
@[simp] theorem setRpm_dist (n : Nat) : (setRpm n s).dist = s.dist := rfl
@[simp] theorem setRpm_speed (n : Nat) : (setRpm n s).speed = s.speed := rfl
@[simp] theorem setRpm_chassis (n : Nat) : (setRpm n s).chassis = s.chassis := rfl
@[simp] theorem setRpm_motor (n : Nat) : (setRpm n s).motor = s.motor := rfl
@[simp] theorem setRpm_fuel (n : Nat) : (setRpm n s).fuel = s.fuel := rfl
@[simp] theorem setRpm_rpm (n : Nat) : (setRpm n s).rpm = if rpmInBound n then BitVec.ofNat 16 n else s.rpm := rfl
@[simp] theorem setRpm_batt (n : Nat) : (setRpm n s).batt = s.batt := rfl
@[simp] theorem setRpm_lastcrc (n : Nat) : (setRpm n s).lastcrc = s.lastcrc := rfl
@[simp] theorem setRpm_cache (n : Nat) : (setRpm n s).cache = s.cache := rfl
@[simp] theorem setRpm_pending (n : Nat) : (setRpm n s).pending = s.pending := rfl
@[simp] theorem setRpm_readData (n : Nat) : (setRpm n s).readData = s.readData := rfl

@[simp] theorem countIdError_params : (countIdError s).params = s.params := rfl
@[simp] theorem countIdError_status : (countIdError s).status = s.status := rfl
@[simp] theorem countIdError_crc : (countIdError s).crc = s.crc := rfl
@[simp] theorem countIdError_rxlen : (countIdError s).rxlen = s.rxlen := rfl
@[simp] theorem countIdError_txlen : (countIdError s).txlen = s.txlen := rfl
@[simp] theorem countIdError_expframe : (countIdError s).expframe = s.expframe := rfl
@[simp] theorem countIdError_flags : (countIdError s).flags = s.flags := rfl
@[simp] theorem countIdError_cmds : (countIdError s).cmds = s.cmds := rfl
@[simp] theorem countIdError_ack : (countIdError s).ack = s.ack := rfl
@[simp] theorem countIdError_errcnt : (countIdError s).errcnt = s.errcnt + 1 := rfl
@[simp] theorem countIdError_bgfRxid : (countIdError s).bgfRxid = s.bgfRxid := rfl
@[simp] theorem countIdError_bgfRxflag : (countIdError s).bgfRxflag = s.bgfRxflag := rfl
@[simp] theorem countIdError_mem : (countIdError s).mem = s.mem := rfl
@[simp] theorem countIdError_frameno : (countIdError s).frameno = s.frameno := rfl
@[simp] theorem countIdError_dist : (countIdError s).dist = s.dist := rfl
@[simp] theorem countIdError_speed : (countIdError s).speed = s.speed := rfl
@[simp] theorem countIdError_chassis : (countIdError s).chassis = s.chassis := rfl
@[simp] theorem countIdError_motor : (countIdError s).motor = s.motor := rfl
@[simp] theorem countIdError_fuel : (countIdError s).fuel = s.fuel := rfl
@[simp] theorem countIdError_rpm : (countIdError s).rpm = s.rpm := rfl
@[simp] theorem countIdError_batt : (countIdError s).batt = s.batt := rfl
@[simp] theorem countIdError_lastcrc : (countIdError s).lastcrc = s.lastcrc := rfl
@[simp] theorem countIdError_cache : (countIdError s).cache = s.cache := rfl
@[simp] theorem countIdError_pending : (countIdError s).pending = s.pending := rfl
@[simp] theorem countIdError_readData : (countIdError s).readData = s.readData := rfl

@[simp] theorem produceFrame_params (bs : List Byte) : (produceFrame bs s).params = s.params := rfl
@[simp] theorem produceFrame_status (bs : List Byte) : (produceFrame bs s).status = s.status := rfl
@[simp] theorem produceFrame_crc (bs : List Byte) : (produceFrame bs s).crc = s.crc := rfl
@[simp] theorem produceFrame_rxlen (bs : List Byte) : (produceFrame bs s).rxlen = s.rxlen := rfl
@[simp] theorem produceFrame_txlen (bs : List Byte) : (produceFrame bs s).txlen = BitVec.ofNat 8 bs.length := rfl
@[simp] theorem produceFrame_expframe (bs : List Byte) : (produceFrame bs s).expframe = s.expframe := rfl
@[simp] theorem produceFrame_flags (bs : List Byte) : (produceFrame bs s).flags = s.flags := rfl
@[simp] theorem produceFrame_cmds (bs : List Byte) : (produceFrame bs s).cmds = s.cmds := rfl
@[simp] theorem produceFrame_ack (bs : List Byte) : (produceFrame bs s).ack = s.ack := rfl
@[simp] theorem produceFrame_errcnt (bs : List Byte) : (produceFrame bs s).errcnt = s.errcnt := rfl
@[simp] theorem produceFrame_bgfRxid (bs : List Byte) : (produceFrame bs s).bgfRxid = s.bgfRxid := rfl
@[simp] theorem produceFrame_bgfRxflag (bs : List Byte) : (produceFrame bs s).bgfRxflag = s.bgfRxflag := rfl
@[simp] theorem produceFrame_mem (bs : List Byte) : (produceFrame bs s).mem = s.mem.writeBytes (txCell 0) bs := rfl
@[simp] theorem produceFrame_frameno (bs : List Byte) : (produceFrame bs s).frameno = s.frameno := rfl
@[simp] theorem produceFrame_dist (bs : List Byte) : (produceFrame bs s).dist = s.dist := rfl
@[simp] theorem produceFrame_speed (bs : List Byte) : (produceFrame bs s).speed = s.speed := rfl
@[simp] theorem produceFrame_chassis (bs : List Byte) : (produceFrame bs s).chassis = s.chassis := rfl
@[simp] theorem produceFrame_motor (bs : List Byte) : (produceFrame bs s).motor = s.motor := rfl
@[simp] theorem produceFrame_fuel (bs : List Byte) : (produceFrame bs s).fuel = s.fuel := rfl
@[simp] theorem produceFrame_rpm (bs : List Byte) : (produceFrame bs s).rpm = s.rpm := rfl
@[simp] theorem produceFrame_batt (bs : List Byte) : (produceFrame bs s).batt = s.batt := rfl
@[simp] theorem produceFrame_lastcrc (bs : List Byte) : (produceFrame bs s).lastcrc = s.lastcrc := rfl
@[simp] theorem produceFrame_cache (bs : List Byte) : (produceFrame bs s).cache = s.cache := rfl
@[simp] theorem produceFrame_pending (bs : List Byte) : (produceFrame bs s).pending = s.pending := rfl
@[simp] theorem produceFrame_readData (bs : List Byte) : (produceFrame bs s).readData = s.readData := rfl

@[simp] theorem produceNoFrame_params : (produceNoFrame s).params = s.params := rfl
@[simp] theorem produceNoFrame_status : (produceNoFrame s).status = s.status := rfl
@[simp] theorem produceNoFrame_crc : (produceNoFrame s).crc = s.crc := rfl
@[simp] theorem produceNoFrame_rxlen : (produceNoFrame s).rxlen = s.rxlen := rfl
@[simp] theorem produceNoFrame_txlen : (produceNoFrame s).txlen = 0 := rfl
@[simp] theorem produceNoFrame_expframe : (produceNoFrame s).expframe = s.expframe := rfl
@[simp] theorem produceNoFrame_flags : (produceNoFrame s).flags = s.flags := rfl
@[simp] theorem produceNoFrame_cmds : (produceNoFrame s).cmds = s.cmds := rfl
@[simp] theorem produceNoFrame_ack : (produceNoFrame s).ack = s.ack := rfl
@[simp] theorem produceNoFrame_errcnt : (produceNoFrame s).errcnt = s.errcnt := rfl
@[simp] theorem produceNoFrame_bgfRxid : (produceNoFrame s).bgfRxid = s.bgfRxid := rfl
@[simp] theorem produceNoFrame_bgfRxflag : (produceNoFrame s).bgfRxflag = s.bgfRxflag := rfl
@[simp] theorem produceNoFrame_mem : (produceNoFrame s).mem = s.mem := rfl
@[simp] theorem produceNoFrame_frameno : (produceNoFrame s).frameno = s.frameno := rfl
@[simp] theorem produceNoFrame_dist : (produceNoFrame s).dist = s.dist := rfl
@[simp] theorem produceNoFrame_speed : (produceNoFrame s).speed = s.speed := rfl
@[simp] theorem produceNoFrame_chassis : (produceNoFrame s).chassis = s.chassis := rfl
@[simp] theorem produceNoFrame_motor : (produceNoFrame s).motor = s.motor := rfl
@[simp] theorem produceNoFrame_fuel : (produceNoFrame s).fuel = s.fuel := rfl
@[simp] theorem produceNoFrame_rpm : (produceNoFrame s).rpm = s.rpm := rfl
@[simp] theorem produceNoFrame_batt : (produceNoFrame s).batt = s.batt := rfl
@[simp] theorem produceNoFrame_lastcrc : (produceNoFrame s).lastcrc = s.lastcrc := rfl
@[simp] theorem produceNoFrame_cache : (produceNoFrame s).cache = s.cache := rfl
@[simp] theorem produceNoFrame_pending : (produceNoFrame s).pending = s.pending := rfl
@[simp] theorem produceNoFrame_readData : (produceNoFrame s).readData = s.readData := rfl

@[simp] theorem recordSent_params (k : Fin 5) (m : BgfMessage) : (recordSent k m s).params = s.params := rfl
@[simp] theorem recordSent_status (k : Fin 5) (m : BgfMessage) : (recordSent k m s).status = s.status := rfl
@[simp] theorem recordSent_crc (k : Fin 5) (m : BgfMessage) : (recordSent k m s).crc = s.crc := rfl
@[simp] theorem recordSent_rxlen (k : Fin 5) (m : BgfMessage) : (recordSent k m s).rxlen = s.rxlen := rfl
@[simp] theorem recordSent_txlen (k : Fin 5) (m : BgfMessage) : (recordSent k m s).txlen = s.txlen := rfl
@[simp] theorem recordSent_expframe (k : Fin 5) (m : BgfMessage) : (recordSent k m s).expframe = s.expframe := rfl
@[simp] theorem recordSent_flags (k : Fin 5) (m : BgfMessage) : (recordSent k m s).flags = s.flags := rfl
@[simp] theorem recordSent_cmds (k : Fin 5) (m : BgfMessage) : (recordSent k m s).cmds = s.cmds := rfl
@[simp] theorem recordSent_ack (k : Fin 5) (m : BgfMessage) : (recordSent k m s).ack = s.ack := rfl
@[simp] theorem recordSent_errcnt (k : Fin 5) (m : BgfMessage) : (recordSent k m s).errcnt = s.errcnt := rfl
@[simp] theorem recordSent_bgfRxid (k : Fin 5) (m : BgfMessage) : (recordSent k m s).bgfRxid = s.bgfRxid := rfl
@[simp] theorem recordSent_bgfRxflag (k : Fin 5) (m : BgfMessage) : (recordSent k m s).bgfRxflag = s.bgfRxflag := rfl
@[simp] theorem recordSent_mem (k : Fin 5) (m : BgfMessage) : (recordSent k m s).mem = s.mem := rfl
@[simp] theorem recordSent_frameno (k : Fin 5) (m : BgfMessage) : (recordSent k m s).frameno = s.frameno := rfl
@[simp] theorem recordSent_dist (k : Fin 5) (m : BgfMessage) : (recordSent k m s).dist = s.dist := rfl
@[simp] theorem recordSent_speed (k : Fin 5) (m : BgfMessage) : (recordSent k m s).speed = s.speed := rfl
@[simp] theorem recordSent_chassis (k : Fin 5) (m : BgfMessage) : (recordSent k m s).chassis = s.chassis := rfl
@[simp] theorem recordSent_motor (k : Fin 5) (m : BgfMessage) : (recordSent k m s).motor = s.motor := rfl
@[simp] theorem recordSent_fuel (k : Fin 5) (m : BgfMessage) : (recordSent k m s).fuel = s.fuel := rfl
@[simp] theorem recordSent_rpm (k : Fin 5) (m : BgfMessage) : (recordSent k m s).rpm = s.rpm := rfl
@[simp] theorem recordSent_batt (k : Fin 5) (m : BgfMessage) : (recordSent k m s).batt = s.batt := rfl
@[simp] theorem recordSent_lastcrc (k : Fin 5) (m : BgfMessage) : (recordSent k m s).lastcrc = s.lastcrc := rfl
@[simp] theorem recordSent_cache (k : Fin 5) (m : BgfMessage) : (recordSent k m s).cache = s.cache.set k (some m) := rfl
@[simp] theorem recordSent_pending (k : Fin 5) (m : BgfMessage) : (recordSent k m s).pending = s.pending := rfl
@[simp] theorem recordSent_readData (k : Fin 5) (m : BgfMessage) : (recordSent k m s).readData = s.readData := rfl

@[simp] theorem setAckBit_params (k : Fin 5) : (setAckBit k s).params = s.params := rfl
@[simp] theorem setAckBit_status (k : Fin 5) : (setAckBit k s).status = s.status := rfl
@[simp] theorem setAckBit_crc (k : Fin 5) : (setAckBit k s).crc = s.crc := rfl
@[simp] theorem setAckBit_rxlen (k : Fin 5) : (setAckBit k s).rxlen = s.rxlen := rfl
@[simp] theorem setAckBit_txlen (k : Fin 5) : (setAckBit k s).txlen = s.txlen := rfl
@[simp] theorem setAckBit_expframe (k : Fin 5) : (setAckBit k s).expframe = s.expframe := rfl
@[simp] theorem setAckBit_flags (k : Fin 5) : (setAckBit k s).flags = s.flags := rfl
@[simp] theorem setAckBit_cmds (k : Fin 5) : (setAckBit k s).cmds = s.cmds := rfl
@[simp] theorem setAckBit_ack (k : Fin 5) : (setAckBit k s).ack = s.ack ||| (1#5 <<< k.val) := rfl
@[simp] theorem setAckBit_errcnt (k : Fin 5) : (setAckBit k s).errcnt = s.errcnt := rfl
@[simp] theorem setAckBit_bgfRxid (k : Fin 5) : (setAckBit k s).bgfRxid = s.bgfRxid := rfl
@[simp] theorem setAckBit_bgfRxflag (k : Fin 5) : (setAckBit k s).bgfRxflag = s.bgfRxflag := rfl
@[simp] theorem setAckBit_mem (k : Fin 5) : (setAckBit k s).mem = s.mem := rfl
@[simp] theorem setAckBit_frameno (k : Fin 5) : (setAckBit k s).frameno = s.frameno := rfl
@[simp] theorem setAckBit_dist (k : Fin 5) : (setAckBit k s).dist = s.dist := rfl
@[simp] theorem setAckBit_speed (k : Fin 5) : (setAckBit k s).speed = s.speed := rfl
@[simp] theorem setAckBit_chassis (k : Fin 5) : (setAckBit k s).chassis = s.chassis := rfl
@[simp] theorem setAckBit_motor (k : Fin 5) : (setAckBit k s).motor = s.motor := rfl
@[simp] theorem setAckBit_fuel (k : Fin 5) : (setAckBit k s).fuel = s.fuel := rfl
@[simp] theorem setAckBit_rpm (k : Fin 5) : (setAckBit k s).rpm = s.rpm := rfl
@[simp] theorem setAckBit_batt (k : Fin 5) : (setAckBit k s).batt = s.batt := rfl
@[simp] theorem setAckBit_lastcrc (k : Fin 5) : (setAckBit k s).lastcrc = s.lastcrc := rfl
@[simp] theorem setAckBit_cache (k : Fin 5) : (setAckBit k s).cache = s.cache := rfl
@[simp] theorem setAckBit_pending (k : Fin 5) : (setAckBit k s).pending = s.pending := rfl
@[simp] theorem setAckBit_readData (k : Fin 5) : (setAckBit k s).readData = s.readData := rfl

@[simp] theorem clearAck_params (v : Byte) : (clearAck v s).params = s.params := rfl
@[simp] theorem clearAck_status (v : Byte) : (clearAck v s).status = s.status := rfl
@[simp] theorem clearAck_crc (v : Byte) : (clearAck v s).crc = s.crc := rfl
@[simp] theorem clearAck_rxlen (v : Byte) : (clearAck v s).rxlen = s.rxlen := rfl
@[simp] theorem clearAck_txlen (v : Byte) : (clearAck v s).txlen = s.txlen := rfl
@[simp] theorem clearAck_expframe (v : Byte) : (clearAck v s).expframe = s.expframe := rfl
@[simp] theorem clearAck_flags (v : Byte) : (clearAck v s).flags = s.flags := rfl
@[simp] theorem clearAck_cmds (v : Byte) : (clearAck v s).cmds = s.cmds := rfl
@[simp] theorem clearAck_ack (v : Byte) : (clearAck v s).ack = s.ack &&& ~~~(v.setWidth 5) := rfl
@[simp] theorem clearAck_errcnt (v : Byte) : (clearAck v s).errcnt = s.errcnt := rfl
@[simp] theorem clearAck_bgfRxid (v : Byte) : (clearAck v s).bgfRxid = s.bgfRxid := rfl
@[simp] theorem clearAck_bgfRxflag (v : Byte) : (clearAck v s).bgfRxflag = s.bgfRxflag := rfl
@[simp] theorem clearAck_mem (v : Byte) : (clearAck v s).mem = s.mem := rfl
@[simp] theorem clearAck_frameno (v : Byte) : (clearAck v s).frameno = s.frameno := rfl
@[simp] theorem clearAck_dist (v : Byte) : (clearAck v s).dist = s.dist := rfl
@[simp] theorem clearAck_speed (v : Byte) : (clearAck v s).speed = s.speed := rfl
@[simp] theorem clearAck_chassis (v : Byte) : (clearAck v s).chassis = s.chassis := rfl
@[simp] theorem clearAck_motor (v : Byte) : (clearAck v s).motor = s.motor := rfl
@[simp] theorem clearAck_fuel (v : Byte) : (clearAck v s).fuel = s.fuel := rfl
@[simp] theorem clearAck_rpm (v : Byte) : (clearAck v s).rpm = s.rpm := rfl
@[simp] theorem clearAck_batt (v : Byte) : (clearAck v s).batt = s.batt := rfl
@[simp] theorem clearAck_lastcrc (v : Byte) : (clearAck v s).lastcrc = s.lastcrc := rfl
@[simp] theorem clearAck_cache (v : Byte) : (clearAck v s).cache = s.cache := rfl
@[simp] theorem clearAck_pending (v : Byte) : (clearAck v s).pending = s.pending := rfl
@[simp] theorem clearAck_readData (v : Byte) : (clearAck v s).readData = s.readData := rfl

@[simp] theorem resetUnit_params : (resetUnit s).params = s.params := rfl
@[simp] theorem resetUnit_status : (resetUnit s).status = 0 := rfl
@[simp] theorem resetUnit_crc : (resetUnit s).crc = s.params.crcInit := rfl
@[simp] theorem resetUnit_rxlen : (resetUnit s).rxlen = 0 := rfl
@[simp] theorem resetUnit_txlen : (resetUnit s).txlen = 0 := rfl
@[simp] theorem resetUnit_expframe : (resetUnit s).expframe = 1 := rfl
@[simp] theorem resetUnit_flags : (resetUnit s).flags = 0 := rfl
@[simp] theorem resetUnit_cmds : (resetUnit s).cmds = 0 := rfl
@[simp] theorem resetUnit_ack : (resetUnit s).ack = 0 := rfl
@[simp] theorem resetUnit_errcnt : (resetUnit s).errcnt = 0 := rfl
@[simp] theorem resetUnit_bgfRxid : (resetUnit s).bgfRxid = 0 := rfl
@[simp] theorem resetUnit_bgfRxflag : (resetUnit s).bgfRxflag = 0 := rfl
@[simp] theorem resetUnit_mem : (resetUnit s).mem = [] := rfl
@[simp] theorem resetUnit_frameno : (resetUnit s).frameno = 0 := rfl
@[simp] theorem resetUnit_dist : (resetUnit s).dist = 0 := rfl
@[simp] theorem resetUnit_speed : (resetUnit s).speed = 0 := rfl
@[simp] theorem resetUnit_chassis : (resetUnit s).chassis = 0 := rfl
@[simp] theorem resetUnit_motor : (resetUnit s).motor = 0 := rfl
@[simp] theorem resetUnit_fuel : (resetUnit s).fuel = 0 := rfl
@[simp] theorem resetUnit_rpm : (resetUnit s).rpm = 0 := rfl
@[simp] theorem resetUnit_batt : (resetUnit s).batt = 0 := rfl
@[simp] theorem resetUnit_lastcrc : (resetUnit s).lastcrc = 0 := rfl
@[simp] theorem resetUnit_cache : (resetUnit s).cache = Vector.replicate 5 none := rfl
@[simp] theorem resetUnit_pending : (resetUnit s).pending = s.pending := rfl
@[simp] theorem resetUnit_readData : (resetUnit s).readData = s.readData := rfl

end Sys2Proof.Machine
end

