-- ==== Sys2Proof/Laws/Ops.lean ====
section
/-! SUPPORT. What the shared operations do: the register map, the bytes of multi-byte registers, and
the reads and writes of registers. -/

namespace Sys2Proof.Machine

/-! ### The register map -/

/-- The address of a register that has one (10_state R13). -/
def regAddr : Reg → Addr
  | .cmd => 0x00 | .status => 0x01 | .crc => 0x02 | .crcData => 0x03 | .rxlen => 0x04
  | .txlen => 0x05 | .expframe => 0x06 | .flags => 0x07 | .cmds => 0x08 | .ack => 0x09
  | .errcnt => 0x0A | .bgfRxid => 0x0B | .bgfRxflag => 0x0C
  | .rxbuf i => BitVec.ofNat 8 (0x10 + i)
  | .txbuf i => BitVec.ofNat 8 (0x20 + i)
  | .frameno => 0x30
  | .dist k => BitVec.ofNat 8 (0x34 - k)
  | .speed => 0x35 | .chassis => 0x36 | .motor => 0x37 | .fuel => 0x38 | .rpmHi => 0x39
  | .rpmLo => 0x3A | .batt => 0x3B | .lastcrc => 0x3C
  | .reserved => 0xFF

theorem regAddr_regAt : ∀ a : Addr, regAt a = .reserved ∨ regAddr (regAt a) = a := by decide

/-- Two addresses of one register are one address, reserved addresses apart. -/
theorem regAt_injective {a b : Addr} (h : regAt a = regAt b) (hr : regAt a ≠ .reserved) : a = b := by
  rcases regAddr_regAt a with ha | ha
  · exact absurd ha hr
  · rcases regAddr_regAt b with hb | hb
    · exact absurd (h.trans hb) hr
    · rw [← ha, ← hb, h]

theorem regAt_rx {i : Nat} (h : i < 16) : regAt (BitVec.ofNat 8 (0x10 + i)) = .rxbuf i := by
  interval_cases i <;> rfl

theorem regAt_tx {i : Nat} (h : i < 16) : regAt (BitVec.ofNat 8 (0x20 + i)) = .txbuf i := by
  interval_cases i <;> rfl

/-- The indices the map gives: buffer bytes below 16, DIST bytes below 4. -/
def regIndexOk : Reg → Bool
  | .rxbuf i => i < 16
  | .txbuf i => i < 16
  | .dist k => k < 4
  | _ => true

theorem regIndexOk_regAt : ∀ a : Addr, regIndexOk (regAt a) = true := by decide

theorem rxAt_eq {i : Nat} (h : i < 16) (s : State) : rxAt s i = rxByte s i := by
  rw [rxAt, memRead, regAt_rx h]; rfl

theorem txAt_eq {i : Nat} (h : i < 16) (s : State) : txAt s i = txByte s i := by
  rw [txAt, memRead, regAt_tx h]; rfl

theorem rxShown_eq {n : Nat} (h : n ≤ 16) (s : State) : rxShown s n = rxBytes s n :=
  List.map_congr_left fun i hi => rxAt_eq (by have := List.mem_range.1 hi; omega) s

theorem txShown_eq {n : Nat} (h : n ≤ 16) (s : State) : txShown s n = txBytes s n :=
  List.map_congr_left fun i hi => txAt_eq (by have := List.mem_range.1 hi; omega) s

/-! ### Bounds -/

@[simp] theorem frameInBound_iff (v : Byte) :
    frameInBound v = true ↔ 1 ≤ v.toNat ∧ v.toNat ≤ 100 := by
  unfold frameInBound Config.frameMin Config.frameMax
  rw [Bool.and_eq_true, decide_eq_true_iff, decide_eq_true_iff]

@[simp] theorem fuelInBound_iff (v : Byte) : fuelInBound v = true ↔ v.toNat ≤ 40 :=
  decide_eq_true_iff

@[simp] theorem rpmInBound_iff (n : Nat) : rpmInBound n = true ↔ n ≤ 10000 :=
  decide_eq_true_iff

/-- EXPFRAME advances by one, 100 to 1 (41_mux R80). -/
theorem nextFrame_eq (v : Byte) : nextFrame v = if v = 100 then 1 else v + 1 := by
  revert v; decide

/-! ### Bytes of multi-byte values -/

theorem byteK_toNat (k : Nat) {n : Nat} (v : BitVec n) :
    (byteK k v).toNat = v.toNat / 2 ^ (8 * k) % 256 := by
  simp [byteK, BitVec.extractLsb'_toNat, Nat.shiftRight_eq_div_pow]

/-- `be32` as a concatenation, the first byte the most significant (20_memory R39). -/
theorem be32_eq_append (a b c d : Byte) : BitVec.ofNat 32 (be32 a b c d) = a ++ b ++ c ++ d := by
  have hb := b.isLt
  have hc := c.isLt
  have hd := d.isLt
  apply BitVec.eq_of_toNat_eq
  simp only [BitVec.toNat_append, BitVec.toNat_ofNat, be32]
  rw [← Nat.shiftLeft_add_eq_or_of_lt hb, ← Nat.shiftLeft_add_eq_or_of_lt hc,
    ← Nat.shiftLeft_add_eq_or_of_lt hd]
  simp only [Nat.shiftLeft_eq]
  omega

/-- Replacing byte `j` of DIST and reading byte `k`. -/
theorem byteK_setByteK {j k : Nat} (hj : j < 4) (hk : k < 4) (b : Byte) (v : BitVec 32) :
    byteK k (setByteK j b v) = if k = j then b else byteK k v := by
  interval_cases j <;> interval_cases k <;>
    · apply BitVec.eq_of_getLsbD_eq
      intro i hi
      simp only [byteK, setByteK, BitVec.getLsbD_extractLsb', BitVec.getLsbD_or, BitVec.getLsbD_and,
        BitVec.getLsbD_not, BitVec.getLsbD_shiftLeft, BitVec.getLsbD_setWidth]
      interval_cases i <;> simp

/-! ### Register reads and writes -/

section
variable (r : Reg) (v : Byte) (s : State)

/-- A register write changes neither the parameters, the read-only registers, the cache, nor the
host's side. -/
@[simp] theorem writeRegister_params : (writeRegister r v s).params = s.params := by cases r <;> rfl
@[simp] theorem writeRegister_status : (writeRegister r v s).status = s.status := by cases r <;> rfl
@[simp] theorem writeRegister_txlen : (writeRegister r v s).txlen = s.txlen := by cases r <;> rfl
@[simp] theorem writeRegister_cmds : (writeRegister r v s).cmds = s.cmds := by cases r <;> rfl
@[simp] theorem writeRegister_bgfRxid : (writeRegister r v s).bgfRxid = s.bgfRxid := by
  cases r <;> rfl
@[simp] theorem writeRegister_bgfRxflag : (writeRegister r v s).bgfRxflag = s.bgfRxflag := by
  cases r <;> rfl
@[simp] theorem writeRegister_cache : (writeRegister r v s).cache = s.cache := by cases r <;> rfl
@[simp] theorem writeRegister_pending : (writeRegister r v s).pending = s.pending := by
  cases r <;> rfl
@[simp] theorem writeRegister_readData : (writeRegister r v s).readData = s.readData := by
  cases r <;> rfl
end

/-- What a write at an RW register does: it reads the byte, and every other register as before
(20_memory R37). -/
theorem readRegister_writeRegister {r r' : Reg} (hrw : accessType r = .rw) (hr : regIndexOk r = true)
    (hr' : regIndexOk r' = true) (v : Byte) (s : State) :
    readRegister (writeRegister r v s) r' = if r' = r then v else readRegister s r' := by
  cases r <;> simp only [accessType, reduceCtorEq] at hrw <;> cases r' <;>
    simp_all [writeRegister, readRegister, rxByte, txByte, rxCell, txCell, regIndexOk,
      byteK_setByteK] <;> omega

/-- What any register write leaves: every register but the one written and, for the RPM bytes, the
other byte, reads as before. -/
theorem readRegister_writeRegister_other {r r' : Reg} (hr : regIndexOk r = true)
    (hr' : regIndexOk r' = true) (hne : r' ≠ r)
    (hrpm : ¬ ((r = .rpmHi ∨ r = .rpmLo) ∧ (r' = .rpmHi ∨ r' = .rpmLo))) (v : Byte) (s : State) :
    readRegister (writeRegister r v s) r' = readRegister s r' := by
  cases r <;> cases r' <;>
    simp_all [writeRegister, readRegister, rxByte, txByte, rxCell, txCell, regIndexOk,
      byteK_setByteK] <;> omega

/-- A produced frame reads back from TXBUF; the rest of TXBUF and all of RXBUF read as before
(10_state R21). -/
theorem txByte_produceFrame (bs : List Byte) (s : State) (i : Nat) :
    txByte (produceFrame bs s) i = if i < bs.length then bs.getD i 0 else txByte s i := by
  show Memory.read (Memory.writeBytes s.mem (txCell 0) bs) (txCell i) = _
  rw [memory_read_writeBytes]
  have hi : txCell 0 ≤ txCell i ∧ txCell i < txCell 0 + bs.length ↔ i < bs.length := by
    simp only [txCell]; omega
  simp only [hi, show txCell i - txCell 0 = i by simp only [txCell]; omega]
  rfl

theorem rxByte_produceFrame (bs : List Byte) (s : State) {i : Nat} (h : i < 16) :
    rxByte (produceFrame bs s) i = rxByte s i := by
  show Memory.read (Memory.writeBytes s.mem (txCell 0) bs) (rxCell i) = _
  rw [memory_read_writeBytes, if_neg (by simp only [txCell, rxCell]; omega)]
  rfl

/-! ### Slots -/

@[simp] theorem namedSlot_slotOperand : ∀ slot : Fin 5, namedSlot (slotOperand slot) = some slot := by
  decide

theorem namedSlot_eq_none {operand : BitVec 3} : namedSlot operand = none ↔ 5 ≤ operand.toNat := by
  revert operand; decide

/-- The message the unit produces carries the slot's id and flag byte (42_serial R90). -/
theorem bgfMessage_eq (s : State) (slot : Fin 5) :
    bgfMessage s.params s.flags slot = ⟨s.params.bgfId[slot], slotFlag s slot⟩ := by
  have hf : ∀ k : Fin 5, fbit k = [6, 5, 4, 2, 3].getD k.val 0 := by decide
  unfold bgfMessage slotFlag
  rw [← hf]
  rfl

/-- In an admitted parameter set an id names one slot (00_scope R7). -/
theorem bgfId_injective {p : Params} (h : p.valid = true) {i j : Fin 5}
    (e : p.bgfId[i] = p.bgfId[j]) : i = j := by
  have hn : p.bgfId.toList.Nodup := by
    simp only [Params.valid, Bool.and_eq_true, decide_eq_true_eq] at h; exact h.2
  have hij := List.nodup_iff_injective_get.1 hn (a₁ := ⟨i, by simp⟩) (a₂ := ⟨j, by simp⟩)
    (by simpa using e)
  exact Fin.ext (by simpa using hij)

theorem slotOf_eq_none {p : Params} {id : Byte} :
    slotOf p id = none ↔ ∀ slot : Fin 5, p.bgfId[slot] ≠ id := by
  unfold slotOf
  constructor
  · intro h slot
    fin_cases slot <;> simp <;> grind
  · intro h
    have h0 := h 0
    have h1 := h 1
    have h2 := h 2
    have h3 := h 3
    have h4 := h 4
    simp only [Fin.getElem_fin] at *
    grind

/-- `slot_of` of a slot's id is the slot (10_state R33). -/
theorem slotOf_bgfId {p : Params} (h : p.valid = true) (slot : Fin 5) :
    slotOf p p.bgfId[slot] = some slot := by
  cases hs : slotOf p p.bgfId[slot] with
  | none => exact absurd rfl (slotOf_eq_none.1 hs slot)
  | some k =>
    refine congrArg some (bgfId_injective h ?_)
    revert hs
    unfold slotOf
    repeat' split
    all_goals intro hs
    all_goals first
      | (obtain rfl := Option.some.inj hs; exact Eq.symm ‹_›)
      | cases hs

/-- The next input taken: the queue was empty, or its head is handed on and dropped. -/
theorem takeInput_cases (s : State) :
    (s.pending = [] ∧ takeInput s = none) ∨
      ∃ input rest, s.pending = input :: rest ∧
        takeInput s = some (input, { s with pending := rest }) := by
  unfold takeInput
  split
  · exact .inl ⟨‹_›, rfl⟩
  · exact .inr ⟨_, _, ‹_›, rfl⟩

end Sys2Proof.Machine
end

