-- ==== Sys2Proof/Laws/Exec.lean ====
section
/-! SUPPORT. What each meaning does, once, by cases: the lemmas cited instead of unfolding it. -/

namespace Sys2Proof.Machine

/-- A 1-byte write to a register address performs the register's write rule. -/
theorem exec_wr_register {a : Addr} (h0 : a ≠ 0x00) (h3 : a ≠ 0x03) (v : Byte) (s : State) :
    exec (.wr a v) s = .next (writeRegister (regAt a) v s) := by
  have hc : regAt a ≠ .cmd := fun h => h0 (regAt_injective (b := 0x00) h (by simp [h]))
  have hd : regAt a ≠ .crcData := fun h => h3 (regAt_injective (b := 0x03) h (by simp [h]))
  show execWr a v s = _
  unfold execWr
  split
  · exact absurd ‹_› hc
  · exact absurd ‹_› hd
  · rfl

/-- MUX.DEC ends in one of three ways (41_mux R81). -/
theorem execMuxDec_cases (s : State) :
    (s.rxlen.toNat ≠ 15 ∧ execMuxDec s = .next (raiseReport .lenError 0 s)) ∨
    (s.rxlen.toNat = 15 ∧ muxCrcMatches s = true ∧
      execMuxDec s = .next
        (complete (seqWarning (rxByte s 0) s.expframe) (unpackTelemetry (advanceExpframe s)))) ∨
    (s.rxlen.toNat = 15 ∧ muxCrcMatches s = false ∧
      execMuxDec s = .next
        (raiseReport .crcError (seqWarning (rxByte s 0) s.expframe) (advanceExpframe s))) := by
  unfold execMuxDec
  by_cases h : s.rxlen.toNat = 15
  · cases hc : muxCrcMatches s
    · exact .inr (.inr ⟨h, rfl, by simp [h, Config.muxInLen]⟩)
    · exact .inr (.inl ⟨h, rfl, by simp [h, Config.muxInLen]⟩)
  · exact .inl ⟨h, by simp [h, Config.muxInLen]⟩

/-- CRC.RX and CRC.TX end in one of two ways (40_crc R75, R76). -/
theorem crcOverBuffer_cases (bytes : Nat → List Byte) (n : Nat) (s : State) :
    (16 < n ∧ crcOverBuffer bytes n s = raiseReport .lenError 0 s) ∨
    (n ≤ 16 ∧ crcOverBuffer bytes n s = complete 0 (setCrc (crc8Compute s.params (bytes n)) s)) := by
  unfold crcOverBuffer
  by_cases h : n ≤ 16
  · exact .inr ⟨h, if_neg (by simpa [Config.bufSize] using h)⟩
  · exact .inl ⟨by omega, if_pos (by simp [Config.bufSize]; omega)⟩

/-- COM.DEC ends in one of two ways (42_serial R89). -/
theorem execComDec_cases (s : State) :
    (s.rxlen.toNat ≠ 1 ∧ execComDec s = .next (raiseReport .lenError 0 s)) ∨
    (s.rxlen.toNat = 1 ∧ execComDec s = .next (complete 0 { s with cmds := rxByte s 0 })) := by
  unfold execComDec
  by_cases h : s.rxlen.toNat = 1
  · exact .inr ⟨h, by simp [h, Config.comodoLen]⟩
  · exact .inl ⟨h, by simp [h, Config.comodoLen]⟩

/-- BGF.SEND ends in one of three ways (42_serial R91). -/
theorem execBgfSend_cases (operand : BitVec 3) (s : State) :
    (namedSlot operand = none ∧ execBgfSend operand s =
      .next (raiseReport .idError 0 (produceNoFrame (countIdError s)))) ∨
    ∃ slot, namedSlot operand = some slot ∧
      ((s.cache[slot] = some (bgfMessage s.params s.flags slot) ∧
        execBgfSend operand s = .next (complete statusSuppr (produceNoFrame s))) ∨
      (s.cache[slot] ≠ some (bgfMessage s.params s.flags slot) ∧
        execBgfSend operand s =
          .next (complete 0 (recordSent slot (bgfMessage s.params s.flags slot)
            (produceFrame [(bgfMessage s.params s.flags slot).id,
              (bgfMessage s.params s.flags slot).flag] s))))) := by
  unfold execBgfSend
  cases h : namedSlot operand with
  | none => exact .inl ⟨rfl, rfl⟩
  | some slot =>
    refine .inr ⟨slot, rfl, ?_⟩
    by_cases hc : s.cache[slot] = some (bgfMessage s.params s.flags slot)
    · exact .inl ⟨hc, by simp only [sendMessage, if_pos hc]⟩
    · exact .inr ⟨hc, by simp only [sendMessage, if_neg hc]⟩

/-- BGF.RECV ends in one of four ways (42_serial R92). -/
theorem execBgfRecv_cases (s : State) :
    (s.rxlen.toNat ≠ 2 ∧ execBgfRecv s = .next (raiseReport .lenError 0 s)) ∨
    (s.rxlen.toNat = 2 ∧
      ((slotOf s.params (rxByte s 0) = none ∧
        execBgfRecv s = .next (raiseReport .idError 0 (countIdError s))) ∨
      ∃ slot, slotOf s.params (rxByte s 0) = some slot ∧
        ((s.cache[slot] = some ⟨rxByte s 0, rxByte s 1⟩ ∧
          execBgfRecv s = .next (complete statusAcked (setAckBit slot
            { s with bgfRxid := rxByte s 0, bgfRxflag := rxByte s 1 }))) ∨
        (s.cache[slot] ≠ some ⟨rxByte s 0, rxByte s 1⟩ ∧
          execBgfRecv s = .next (complete 0
            { s with bgfRxid := rxByte s 0, bgfRxflag := rxByte s 1 }))))) := by
  unfold execBgfRecv
  by_cases h : s.rxlen.toNat = 2
  · refine .inr ⟨h, ?_⟩
    simp only [h, Config.bgfLen, ne_eq, not_true_eq_false, if_false, receivedMessage]
    cases hs : slotOf s.params (rxByte s 0) with
    | none => exact .inl ⟨rfl, rfl⟩
    | some slot =>
      refine .inr ⟨slot, rfl, ?_⟩
      by_cases hc : s.cache[slot] = some ⟨rxByte s 0, rxByte s 1⟩
      · exact .inl ⟨hc, by simp only [acceptMessage, if_pos hc]⟩
      · exact .inr ⟨hc, by simp only [acceptMessage, if_neg hc]⟩
  · exact .inl ⟨h, by simp [h, Config.bgfLen]⟩

/-- Every bit of a packed byte is its item (30_encoding R62). -/
theorem getLsbD_packFrom (msbFirst : Bool) (i0 i1 i2 i3 i4 i5 i6 i7 : Bool) {k : Nat} (hk : k < 8) :
    (packFrom msbFirst 0 [i0, i1, i2, i3, i4, i5, i6, i7]).getLsbD (if msbFirst then 7 - k else k) =
      [i0, i1, i2, i3, i4, i5, i6, i7].getD k false := by
  interval_cases k <;> revert msbFirst i0 i1 i2 i3 i4 i5 i6 i7 <;> decide

/-- A reporting command: what it can leave behind, in terms of the shared operations. -/
theorem exec_command_cases {i : Instr} {s t : State} (hi : isReportingCommand i = true)
    (h : exec i s = .next t) :
    (i = .crcInit ∧ t = complete 0 (setCrc s.params.crcInit s)) ∨
    ((i = .crcRx ∨ i = .crcTx) ∧
      (t = raiseReport .lenError 0 s ∨ ∃ v, t = complete 0 (setCrc v s))) ∨
    (i = .muxDec ∧ (t = raiseReport .lenError 0 s ∨
      t = complete (seqWarning (rxByte s 0) s.expframe) (unpackTelemetry (advanceExpframe s)) ∨
      t = raiseReport .crcError (seqWarning (rxByte s 0) s.expframe) (advanceExpframe s))) ∨
    (i = .muxEnc ∧ t = complete 0 (produceFrame (muxOutFrame s) s)) ∨
    (i = .comDec ∧ (t = raiseReport .lenError 0 s ∨
      t = complete 0 { s with cmds := rxByte s 0 })) ∨
    ((∃ operand, i = .bgfSend operand) ∧
      (t = raiseReport .idError 0 (produceNoFrame (countIdError s)) ∨
      t = complete statusSuppr (produceNoFrame s) ∨
      ∃ slot : Fin 5, t = complete 0 (recordSent slot (bgfMessage s.params s.flags slot)
        (produceFrame [(bgfMessage s.params s.flags slot).id,
          (bgfMessage s.params s.flags slot).flag] s)))) ∨
    (i = .bgfRecv ∧ (t = raiseReport .lenError 0 s ∨ t = raiseReport .idError 0 (countIdError s) ∨
      (∃ slot : Fin 5, t = complete statusAcked (setAckBit slot
        { s with bgfRxid := rxByte s 0, bgfRxflag := rxByte s 1 })) ∨
      t = complete 0 { s with bgfRxid := rxByte s 0, bgfRxflag := rxByte s 1 })) ∨
    ((∃ c, i = .reserved c) ∧ t = raiseReport .illegalCommand 0 s) := by
  cases i with
  | nop => cases hi
  | crcUpd b => cases hi
  | wr a v => cases hi
  | rd a => cases hi
  | crcInit => cases h; exact .inl ⟨rfl, rfl⟩
  | crcRx =>
    cases h
    refine .inr (.inl ⟨.inl rfl, ?_⟩)
    rcases crcOverBuffer_cases (rxBytes s) s.rxlen.toNat s with ⟨_, he⟩ | ⟨_, he⟩ <;> rw [he]
    · exact .inl rfl
    · exact .inr ⟨_, rfl⟩
  | crcTx =>
    cases h
    refine .inr (.inl ⟨.inr rfl, ?_⟩)
    rcases crcOverBuffer_cases (txBytes s) s.txlen.toNat s with ⟨_, he⟩ | ⟨_, he⟩ <;> rw [he]
    · exact .inl rfl
    · exact .inr ⟨_, rfl⟩
  | muxDec =>
    refine .inr (.inr (.inl ⟨rfl, ?_⟩))
    rcases execMuxDec_cases s with ⟨_, he⟩ | ⟨_, _, he⟩ | ⟨_, _, he⟩ <;>
      obtain rfl := Host.Outcome.next.inj (h.symm.trans he)
    · exact .inl rfl
    · exact .inr (.inl rfl)
    · exact .inr (.inr rfl)
  | muxEnc => cases h; exact .inr (.inr (.inr (.inl ⟨rfl, rfl⟩)))
  | comDec =>
    refine .inr (.inr (.inr (.inr (.inl ⟨rfl, ?_⟩))))
    rcases execComDec_cases s with ⟨_, he⟩ | ⟨_, he⟩ <;>
      obtain rfl := Host.Outcome.next.inj (h.symm.trans he)
    · exact .inl rfl
    · exact .inr rfl
  | bgfSend operand =>
    refine .inr (.inr (.inr (.inr (.inr (.inl ⟨⟨operand, rfl⟩, ?_⟩)))))
    rcases execBgfSend_cases operand s with ⟨_, he⟩ | ⟨k, _, ⟨_, he⟩ | ⟨_, he⟩⟩ <;>
      obtain rfl := Host.Outcome.next.inj (h.symm.trans he)
    · exact .inl rfl
    · exact .inr (.inl rfl)
    · exact .inr (.inr ⟨k, rfl⟩)
  | bgfRecv =>
    refine .inr (.inr (.inr (.inr (.inr (.inr (.inl ⟨rfl, ?_⟩))))))
    rcases execBgfRecv_cases s with ⟨_, he⟩ | ⟨_, ⟨_, he⟩ | ⟨k, _, ⟨_, he⟩ | ⟨_, he⟩⟩⟩ <;>
      obtain rfl := Host.Outcome.next.inj (h.symm.trans he)
    · exact .inl rfl
    · exact .inr (.inl rfl)
    · exact .inr (.inr (.inl ⟨k, rfl⟩))
    · exact .inr (.inr (.inr rfl))
  | reserved c =>
    cases h
    exact .inr (.inr (.inr (.inr (.inr (.inr (.inr ⟨⟨c, rfl⟩, rfl⟩))))))

/-- What a step that goes on did: it held the state, reset the unit, or performed the instruction of
the next access. -/
theorem step_cases {s t : State} (h : step s = .next t) :
    s.params.valid = true ∧
      ((s.pending = [] ∧ t = s) ∨
        (∃ rest, s.pending = .reset :: rest ∧ t = resetUnit { s with pending := rest }) ∨
        ∃ b rest i, s.pending = .access b :: rest ∧ decodeAccess b = .instr i ∧
          exec i { s with pending := rest } = .next t) := by
  have hv : s.params.valid = true := by
    by_contra hn
    unfold step at h
    split at h <;> simp [guardParams, hn] at h
  refine ⟨hv, ?_⟩
  unfold step at h
  rcases takeInput_cases s with ⟨hp, ht⟩ | ⟨input, rest, hp, ht⟩
  · rw [ht] at h
    simp only [guardParams, hv, if_true, Host.Outcome.next.injEq] at h
    exact .inl ⟨hp, h.symm⟩
  · rw [ht] at h
    cases input with
    | reset =>
      simp only [guardParams, hv, if_true, Host.Outcome.next.injEq] at h
      exact .inr (.inl ⟨rest, hp, h.symm⟩)
    | access b =>
      simp only [guardParams, hv, if_true, performAccess] at h
      cases hd : decodeAccess b with
      | instr i => rw [hd] at h; exact .inr (.inr ⟨b, rest, i, hp, hd, h⟩)
      | reject r => cases r; rw [hd] at h; simp at h

/-- A run of k + 1 steps whose first step goes on. -/
theorem run_succ_next (k : Nat) {s t : State} (h : step s = .next t) :
    Host.Core.run Sys2Proof.core (k + 1) s = Host.Core.run Sys2Proof.core k t := by
  have h' : Sys2Proof.core.step s = .next t := h
  simp only [Host.Core.run, h']

/-! ### Scripts -/

@[simp] theorem runScript_nil (s : State) : runScript [] s = .next s := rfl

/-- A script whose first instruction completes. -/
theorem runScript_cons_next {i : Instr} {s t : State} (h : exec i s = .next t) (rest : List Instr) :
    runScript (i :: rest) s = runScript rest t := by
  simp only [runScript, h]

@[simp] theorem keepsTelemetry_nil (s : State) : keepsTelemetry [] s := trivial

/-- A script whose first instruction completes keeps the telemetry when that instruction does and
the rest does from its next state. -/
theorem keepsTelemetry_cons_next {i : Instr} {s t : State} (h : exec i s = .next t)
    (rest : List Instr) :
    keepsTelemetry (i :: rest) s ↔ ¬ mayWriteTelemetry i s ∧ keepsTelemetry rest t := by
  refine and_congr_right fun _ => ⟨fun hk => hk t h, fun hk u hu => ?_⟩
  cases h.symm.trans hu
  exact hk

/-- A frame is accepted when it is delimited and MUX.DEC finds its CRC (41_mux R78, R79). -/
theorem muxAccepts_iff (s : State) :
    muxAccepts s ↔ s.rxlen.toNat = 15 ∧ muxCrcMatches s = true := by
  unfold muxAccepts muxCrcMatches
  rw [rxShown_eq (by omega), rxAt_eq (by omega), beq_iff_eq, ← BitVec.toNat_inj]
  rfl

end Sys2Proof.Machine
end

