-- ==== Sys2Proof/Laws/PerInstr.lean ====
section
/-! SUPPORT. Statements made for every instruction, one lemma per constructor. -/

namespace Sys2Proof.Laws

/-- Every instruction is carried by one access of width 1 (30_encoding R51, 20_memory R42). -/
def EncodeWidth.Statement (i : Instr) : Prop := (encode i).width = 1

theorem EncodeWidth.nop : EncodeWidth.Statement .nop := rfl
theorem EncodeWidth.crcInit : EncodeWidth.Statement .crcInit := rfl
theorem EncodeWidth.crcRx : EncodeWidth.Statement .crcRx := rfl
theorem EncodeWidth.crcTx : EncodeWidth.Statement .crcTx := rfl
theorem EncodeWidth.muxDec : EncodeWidth.Statement .muxDec := rfl
theorem EncodeWidth.muxEnc : EncodeWidth.Statement .muxEnc := rfl
theorem EncodeWidth.comDec : EncodeWidth.Statement .comDec := rfl
theorem EncodeWidth.bgfSend (slot : BitVec 3) : EncodeWidth.Statement (.bgfSend slot) := rfl
theorem EncodeWidth.bgfRecv : EncodeWidth.Statement .bgfRecv := rfl
theorem EncodeWidth.reserved (code : Byte) : EncodeWidth.Statement (.reserved code) := rfl
theorem EncodeWidth.crcUpd (b : Byte) : EncodeWidth.Statement (.crcUpd b) := rfl
theorem EncodeWidth.wr (a : Addr) (v : Byte) : EncodeWidth.Statement (.wr a v) := rfl
theorem EncodeWidth.rd (a : Addr) : EncodeWidth.Statement (.rd a) := rfl

end Sys2Proof.Laws
end

