-- ==== Sys2Proof/Tests/Slice0.lean ====
section
/-! SUPPORT. Tests of single steps (expected values from 95_test_vectors.md), of the decoder (words
written out from 30_encoding R55), of the well-formedness checks, and a witness for the hypotheses of
every statement that has some. -/

namespace Sys2Proof.Tests
open Sys2Proof Sys2Proof.Machine

/-! ### Helpers -/

/-- `exec i s` answers a next state that meets `f`. -/
def gives (i : Instr) (s : State) (f : State → Bool) : Bool :=
  match exec i s with
  | .next t => f t
  | .fault _ => false
  | .refused _ => false

/-- `step s` answers a next state that meets `f`. -/
def steps (s : State) (f : State → Bool) : Bool :=
  match step s with
  | .next t => f t
  | .fault _ => false
  | .refused _ => false

/-- The frame in RXBUF, its length in RXLEN. -/
def withRx (bytes : List Byte) (s : State) : State :=
  { s with mem := s.mem.writeBytes 0x10 bytes, rxlen := BitVec.ofNat 8 bytes.length }

/-- The valid MUX frame of 95 L1.3. -/
def frameBytes : List Byte :=
  [0x01, 0x00, 0x00, 0x00, 0x0A, 0x32, 0x00, 0x00, 0x28, 0x00, 0x00, 0x00, 0x00, 0x00, 0x72]

/-- Reset, with the valid frame received. -/
def framed : State := withRx frameBytes State.reset

/-- The state S1 of 95 L2.3, after the frame of L1.3 was accepted. -/
def s1 : State :=
  { framed with
    status := 0x01, expframe := 2, frameno := 1, dist := 10, speed := 50, fuel := 40
    lastcrc := 0x72 }

/-- Reset, with FLAGS = 0x44 and the message of slot 3 sent (95 L2.6). -/
def sent : State :=
  { State.reset with
    status := 0x01, flags := 0x44, mem := [(0x20, 0x04), (0x21, 0x01)], txlen := 2
    cache := #v[none, none, none, some ⟨0x04, 0x01⟩, none] }

/-- Reset, with the messages of slots 0 and 4 sent as 01 01 and 05 00. -/
def sentEnds : State :=
  { State.reset with
    flags := 0x40, cache := #v[some ⟨0x01, 0x01⟩, none, none, none, some ⟨0x05, 0x00⟩] }

/-- Another admitted parameter set: the reflected one of 95 L2.1, LSB-first, with ids of its own. -/
def otherParams : Params :=
  { Params.default with
    crcPoly := 0x31, crcReflect := true, outMsbFirst := false, motorBitC := 7
    bgfId := #v[0x80, 0x00, 0xFF, 0x7F, 0x10], bgfFlagFieldIsId := true }

/-! ### Well-formedness: a term that each check refuses, beside one it admits -/

theorem test_wellFormed_refuses_assigned_reserved_code :
    ¬ WellFormed (.reserved 0x10) ∧ ¬ WellFormed (.reserved 0x30) ∧ WellFormed (.reserved 0x12) := by
  decide

theorem test_wellFormed_refuses_wr_to_cmd :
    ¬ WellFormed (.wr 0x00 0x10) ∧ WellFormed (.wr 0x01 0x10) := by decide

theorem test_wellFormed_refuses_wr_to_crcData :
    ¬ WellFormed (.wr 0x03 0x31) ∧ WellFormed (.wr 0x02 0x31) := by decide

/-! ### Decoding: one word for every constructor -/

theorem test_decode_nop : decodeAccess (.write 0x00 [0b00000000]) = .instr .nop := by decide
theorem test_decode_crcInit : decodeAccess (.write 0x00 [0b00000001]) = .instr .crcInit := by decide
theorem test_decode_crcRx : decodeAccess (.write 0x00 [0b00000010]) = .instr .crcRx := by decide
theorem test_decode_crcTx : decodeAccess (.write 0x00 [0b00000011]) = .instr .crcTx := by decide
theorem test_decode_muxDec : decodeAccess (.write 0x00 [0b00010000]) = .instr .muxDec := by decide
theorem test_decode_muxEnc : decodeAccess (.write 0x00 [0b00010001]) = .instr .muxEnc := by decide
theorem test_decode_comDec : decodeAccess (.write 0x00 [0b00100000]) = .instr .comDec := by decide
theorem test_decode_bgfSend :
    decodeAccess (.write 0x00 [0b00110011]) = .instr (.bgfSend 3) ∧
      decodeAccess (.write 0x00 [0b00110111]) = .instr (.bgfSend 7) := by decide
theorem test_decode_bgfRecv : decodeAccess (.write 0x00 [0b00111000]) = .instr .bgfRecv := by decide
theorem test_decode_reserved :
    decodeAccess (.write 0x00 [0b00000100]) = .instr (.reserved 0x04) ∧
      decodeAccess (.write 0x00 [0b11111111]) = .instr (.reserved 0xFF) := by decide
theorem test_decode_crcUpd :
    decodeAccess (.write 0x03 [0b00110001]) = .instr (.crcUpd 0x31) := by decide
theorem test_decode_wr :
    decodeAccess (.write 0x39 [0b00100111]) = .instr (.wr 0x39 0x27) := by decide
theorem test_decode_rd : decodeAccess (.read 0x3A 1) = .instr (.rd 0x3A) := by decide
theorem test_decode_refuses_wide :
    decodeAccess (.write 0x10 [0x01, 0x02]) = .reject (.badWidth 2) ∧
      decodeAccess (.write 0x10 []) = .reject (.badWidth 0) ∧
      decodeAccess (.read 0x31 4) = .reject (.badWidth 4) := by decide

/-- An opcode-table word of 8 bits is one byte written to CMD, and runs as the next step. -/
theorem test_tableWord :
    decodeTableWord 8 0x32 = some (.bgfSend 2) ∧ decodeTableWord 8 0x99 = some (.reserved 0x99) ∧
      decodeTableWord 16 0x0110 = none ∧
      steps (State.reset.withFetchWord 8 0xFF) (fun t => t.status == 0x80 && t.pending == []) := by
  decide +kernel

/-! ### The CRC functions (95 L2.1) -/

theorem test_crc8Update_default :
    crc8Update Params.default 0x12 0x34 = 0xF2 ∧ crc8Update Params.default 0xF4 0x00 = 0xC2 := by
  decide +kernel

theorem test_crc8Update_reflected :
    crc8Update otherParams 0x12 0x34 = 0xFE ∧ crc8Update otherParams 0x00 0x02 = 0xBC := by
  decide +kernel

/-- The check values over "123456789". -/
theorem test_crc8Compute_check_values :
    let digits : List Byte := [0x31, 0x32, 0x33, 0x34, 0x35, 0x36, 0x37, 0x38, 0x39]
    crc8Compute Params.default digits = 0xF4 ∧ crc8Compute otherParams digits = 0xA1 ∧
      crc8Compute { Params.default with crcPoly := 0x1D, crcInit := 0xFF } digits = 0xB4 := by
  decide +kernel

/-! ### One step of each instruction -/

/-- 95 L2.7. -/
theorem test_nop_keeps_status :
    gives .nop { State.reset with status := 0x06 } (fun t => t.status == 0x06) := by decide +kernel

/-- 95 L2.7. -/
theorem test_reserved_reports :
    gives (.reserved 0xFF) { State.reset with status := 0x01 }
      (fun t => t.status == 0x80 && t.errcnt == 0x00) := by decide +kernel

/-- 95 L2.2. -/
theorem test_crcInit :
    gives .crcInit { State.reset with crc := 0x5A, status := 0x06 }
      (fun t => t.crc == 0x00 && t.status == 0x01) := by decide +kernel

/-- 95 L2.2: RXLEN = 14 gives the CRC byte. -/
theorem test_crcRx_of_fourteen :
    gives .crcRx { framed with rxlen := 14 } (fun t => t.crc == 0x72 && t.status == 0x01) := by
  decide +kernel

/-- 95 L2.2. -/
theorem test_crcRx_too_long :
    gives .crcRx { State.reset with rxlen := 17, crc := 0x33 }
      (fun t => t.crc == 0x33 && t.status == 0x08) := by decide +kernel

/-- 95 L2.2. -/
theorem test_crcTx_of_ten :
    gives .crcTx
      { State.reset with
        txlen := 10, mem := [(0x20, 0x80), (0x25, 0x0A), (0x26, 0x32), (0x27, 0x64)] }
      (fun t => t.crc == 0xBA && t.status == 0x01 && t.txlen == 10) := by decide +kernel

/-- 95 L2.2. -/
theorem test_crcTx_empty :
    gives .crcTx { State.reset with crc := 0x33 } (fun t => t.crc == 0x00 && t.status == 0x01) := by
  decide +kernel

/-- 95 L2.2: STATUS is not written. -/
theorem test_crcUpd :
    gives (.crcUpd 0x01) { State.reset with status := 0x06 }
      (fun t => t.crc == 0x07 && t.status == 0x06) := by decide +kernel

/-- 95 L2.2. -/
theorem test_crcUpd_own_value :
    gives (.crcUpd 0xF4) { State.reset with crc := 0xF4 } (fun t => t.crc == 0x00) := by
  decide +kernel

/-- 95 L1.3. -/
theorem test_muxDec_accepts :
    gives .muxDec framed (fun t =>
      t.status == 0x01 && t.expframe == 2 && t.frameno == 1 && t.dist == 10 && t.speed == 50 &&
        t.fuel == 40 && t.rpm == 0 && t.lastcrc == 0x72) := by decide +kernel

/-- 95 L2.3 row 2: sequence warning, fuel 41 and rpm 65536 rejected, the others written. -/
theorem test_muxDec_bounds :
    gives .muxDec (withRx [0x03, 0x00, 0x00, 0x00, 0x00, 0x00, 0x00, 0x00, 0x29, 0x00, 0x01, 0x00,
        0x00, 0x00, 0x63] s1)
      (fun t => t.status == 0x05 && t.expframe == 3 && t.frameno == 3 && t.dist == 0 &&
        t.fuel == 40 && t.rpm == 0 && t.lastcrc == 0x63) := by decide +kernel

/-- 95 L2.4 row 14. -/
theorem test_muxEnc_mixed :
    gives .muxEnc
      { State.reset with
        flags := 0xC3, chassis := 0x03, motor := 0x05, batt := 0x02, fuel := 20, rpm := 10000
        dist := 256, speed := 100 }
      (fun t => txShown t 10 == [0x8C, 0xEF, 0x00, 0x00, 0x01, 0x00, 0x64, 0x32, 0x03, 0xE8] &&
        t.txlen == 10 && t.status == 0x01) := by decide +kernel

/-- 95 L2.4 row 15 with OUT_MSB_FIRST = false. -/
theorem test_muxEnc_lsb_first :
    gives .muxEnc
      { State.resetWith { Params.default with outMsbFirst := false } with
        flags := 0x40, fuel := 40, dist := 10, speed := 50 }
      (fun t => txShown t 10 == [0x01, 0x00, 0x00, 0x00, 0x00, 0x0A, 0x32, 0x64, 0x00, 0x00]) := by
  decide +kernel

/-- 95 L2.5. -/
theorem test_comDec :
    gives .comDec (withRx [0xA5] State.reset) (fun t => t.cmds == 0xA5 && t.status == 0x01) := by
  decide +kernel

/-- 95 L2.5: no frame. -/
theorem test_comDec_no_frame :
    gives .comDec { State.reset with cmds := 0xA5 } (fun t => t.cmds == 0xA5 && t.status == 0x08) := by
  decide +kernel

/-- 95 L2.6, slot 3: FLAGS bit 2. -/
theorem test_bgfSend_produces :
    gives (.bgfSend 3) { State.reset with flags := 0x44 } (fun t => t == sent) := by decide +kernel

/-- 95 L2.6 row 5. -/
theorem test_bgfSend_no_slot :
    gives (.bgfSend 6) { sent with errcnt := 0xFF }
      (fun t => t.status == 0x10 && t.errcnt == 0x00 && t.txlen == 0) := by decide +kernel

/-- 95 L2.6 row 6. -/
theorem test_bgfRecv_acknowledges :
    gives .bgfRecv (withRx [0x04, 0x01] sent)
      (fun t => t.status == 0x41 && t.ack == 0b01000 && t.bgfRxid == 0x04 && t.bgfRxflag == 0x01) := by
  decide +kernel

/-- 95 L2.6 row 9. -/
theorem test_bgfRecv_unknown_id :
    gives .bgfRecv (withRx [0x09, 0x01] sent)
      (fun t => t.status == 0x10 && t.errcnt == 0x01 && t.bgfRxid == 0x00) := by decide +kernel

/-- 95 L1.4: the candidate 10239 is rejected. -/
theorem test_wr_rpm_rejected :
    gives (.wr 0x39 0x27) { State.reset with rpm := 0x00FF } (fun t => t.rpm == 0x00FF) := by
  decide +kernel

/-- 95 L2.6 row 14. -/
theorem test_wr_ack_clears :
    gives (.wr 0x09 0x05) { State.reset with ack := 0x1F } (fun t => t.ack == 0x1A) := by
  decide +kernel

/-- 20_memory R40: DIST3 at 0x31. -/
theorem test_rd_dist_big_endian :
    gives (.rd 0x31) { State.reset with dist := 0x12000078 } (fun t => t.readData == some 0x12) := by
  decide +kernel

/-- 95 L2.8: CRC_DATA reads 0x00, and the read updates nothing. -/
theorem test_rd_crcData :
    gives (.rd 0x03) { State.reset with crc := 0x5A }
      (fun t => t.readData == some 0x00 && t.crc == 0x5A) := by decide +kernel

/-! ### Witnesses: concrete states and operands that meet the hypotheses of the statements -/

/-- DecodeOfEncodeGivesInstruction, EveryInstructionCompletes and the frames, at boundary operands. -/
theorem witness_wellFormed :
    WellFormed (.reserved 0x04) ∧ WellFormed (.reserved 0xFF) ∧ WellFormed (.bgfSend 7) ∧
      WellFormed (.wr 0x01 0x00) ∧ WellFormed (.wr 0xFF 0xFF) ∧ WellFormed (.rd 0x00) := by decide

theorem witness_EncodeOfDecodeGivesAccess :
    decodeAccess (.write 0x00 [0x37]) = .instr (.bgfSend 7) ∧
      decodeAccess (.write 0xFF [0xFF]) = .instr (.wr 0xFF 0xFF) := by decide

/-- The ends of the four ranges are reserved; their neighbours are not. -/
theorem witness_ReservedCodesAreTheFourRanges :
    ([0x04, 0x0F, 0x12, 0x1F, 0x21, 0x2F, 0x39, 0xFF] : List Byte).all reservedCode = true ∧
      ([0x03, 0x10, 0x11, 0x20, 0x30, 0x37, 0x38] : List Byte).any reservedCode = false ∧
      decodeAccess (.write 0x00 [0x39]) = .instr (.reserved 0x39) := by decide

theorem witness_SlotFieldIsTheLowThreeBits :
    (0x30 : Byte).toNat / 8 = 0b00110 ∧ (0x37 : Byte).toNat / 8 = 0b00110 ∧
      5 ≤ (5 : BitVec 3).toNat ∧ 5 ≤ (7 : BitVec 3).toNat := by decide

/-- StepRunsDecodedInstruction: a second input waits behind the one taken. -/
theorem witness_StepRunsDecodedInstruction :
    let s := { framed with pending := [.access (.write 0x00 [0x10]), .reset] }
    s.params.valid = true ∧ s.pending = .access (.write 0x00 [0x10]) :: [.reset] ∧
      decodeAccess (.write 0x00 [0x10]) = .instr .muxDec ∧
      steps s (fun t => t.frameno == 1 && t.pending == [.reset]) := by decide +kernel

/-- OnlyOneByteAccessesAreTaken: a width of 1, and both neighbours. -/
theorem witness_OnlyOneByteAccessesAreTaken :
    (BusAccess.read 0xFF 1).width = 1 ∧ (BusAccess.read 0x00 0).width ≠ 1 ∧
      (BusAccess.write 0x31 [0x00, 0x01]).width ≠ 1 ∧
      ({ State.reset with pending := [.access (.read 0x00 0)] } : State).params.valid = true := by
  decide +kernel

theorem witness_IdleAndResetKeepTheHostSide :
    s1.params.valid = true ∧ s1.pending = [] ∧
      ({ s1 with pending := [.reset] } : State).pending = .reset :: [] := by decide +kernel

/-- BadParameterSetsAreRefused: each clause alone refuses; the two sets of the tests are admitted. -/
theorem witness_BadParameterSetsAreRefused :
    ([{ Params.default with crcPoly := 0x06 }, { Params.default with tyreBit := 8 },
      { Params.default with brakesBit := 8 }, { Params.default with battDischBit := 8 },
      { Params.default with battKoBit := 8 }, { Params.default with motorBitA := 8 },
      { Params.default with motorBitB := 8 }, { Params.default with motorBitC := 8 },
      { Params.default with tyreBit := 1 }, { Params.default with battKoBit := 0 },
      { Params.default with motorBitB := 0 }, { Params.default with motorBitC := 0 },
      { Params.default with motorBitC := 1 },
      { Params.default with bgfId := #v[0x01, 0x02, 0x03, 0x04, 0x01] }] : List Params).any
        Params.valid = false ∧
      Params.default.valid = true ∧ otherParams.valid = true := by decide +kernel

/-- ResetGivesEveryResetValue: a state that differs from reset in registers, buffers and cache. -/
theorem witness_ResetGivesEveryResetValue :
    let s := { sent with rpm := 10000, ack := 0x1F, pending := [.reset, .reset] }
    s.params.valid = true ∧ s.pending = .reset :: [.reset] ∧
      steps s (fun t => t == { State.reset with pending := [.reset] }) := by decide +kernel

theorem witness_StepsRunIssuedScript :
    State.reset.params.valid = true ∧
      ∀ i ∈ loadRx [0x01, 0x01] ++ [.bgfRecv, .reserved 0xFF, .rd 0x01], WellFormed i := by
  decide +kernel

/-- ResetSatisfiesInvariant. -/
theorem witness_ResetSatisfiesInvariant :
    Params.default.valid = true ∧ otherParams.valid = true := by decide +kernel

/-- The echo of the cached message received, and BGF.RECV issued. -/
def echoing : State :=
  { withRx [0x04, 0x01] sent with pending := [.access (.write 0x00 [0x38])] }

/-- A state that meets the invariant with buffers filled and a message cached. -/
theorem invariant_echoing : Invariant echoing where
  params := by decide +kernel
  bounds := ⟨by decide, by decide, by decide, by decide, by decide +kernel⟩
  txlen := by decide
  status := by decide
  mem := by decide +kernel
  cache := by
    intro slot msg h
    match slot with
    | 0 => exact absurd h (by intro h; cases h)
    | 1 => exact absurd h (by intro h; cases h)
    | 2 => exact absurd h (by intro h; cases h)
    | 3 => cases h; decide
    | 4 => exact absurd h (by intro h; cases h)

/-- StepKeepsInvariant: a state of the invariant whose step performs a command. -/
theorem witness_StepKeepsInvariant :
    Invariant echoing ∧ steps echoing (fun t => t.ack == 0b01000) :=
  ⟨invariant_echoing, by decide +kernel⟩

/-- BoundsHoldInReachableStates: a run of two accesses from reset, and frames whose numbers are the
ends of the bound. -/
theorem witness_BoundsHoldInReachableStates :
    (match Host.Core.run Sys2Proof.core 2 { State.resetWith otherParams with
        pending := [.access (.write 0x38 [0x28]), .access (.write 0x06 [0x64])] } with
      | .next t => t.fuel == 40 && t.expframe == 100
      | .fault _ => false
      | .refused _ => false) = true ∧
      gives (.wr 0x30 0x64) s1 (fun t => t.frameno == 100) ∧ s1.frameno ≠ 0 ∧
      framed.rxlen = 15 ∧ crc8Compute framed.params (rxShown framed 14) = rxAt framed 14 ∧
      (rxAt framed 0).toNat = 1 := by decide +kernel

/-- A valid frame of number 100 (95 P4 line 3). -/
def lastFrame : State :=
  withRx [0x64, 0, 0, 0, 0, 0, 0, 0, 0, 0, 0, 0, 0, 0, 0x86] { s1 with expframe := 100 }

theorem witness_frame_hundred :
    lastFrame.rxlen = 15 ∧ crc8Compute lastFrame.params (rxShown lastFrame 14) = rxAt lastFrame 14 ∧
      (rxAt lastFrame 0).toNat = 100 := by decide +kernel

theorem witness_PlainWritesStoreTheirByte :
    storeAddr 0x02 ∧ storeAddr 0x04 ∧ storeAddr 0x07 ∧ storeAddr 0x0A ∧ storeAddr 0x10 ∧
      storeAddr 0x2F ∧ storeAddr 0x31 ∧ storeAddr 0x37 ∧ storeAddr 0x3B ∧ storeAddr 0x3C ∧
      ¬ storeAddr 0x0F ∧ ¬ storeAddr 0x30 ∧ ¬ storeAddr 0x38 := by
  refine ⟨?_, ?_, ?_, ?_, ?_, ?_, ?_, ?_, ?_, ?_, ?_, ?_, ?_⟩ <;> unfold storeAddr <;> decide

theorem witness_DeadWritesChangeNothing :
    deadAddr 0x01 ∧ deadAddr 0x05 ∧ deadAddr 0x08 ∧ deadAddr 0x0B ∧ deadAddr 0x0F ∧ deadAddr 0x3D ∧
      deadAddr 0xFF ∧ ¬ deadAddr 0x0A ∧ ¬ deadAddr 0x10 ∧ ¬ deadAddr 0x3C := by
  refine ⟨?_, ?_, ?_, ?_, ?_, ?_, ?_, ?_, ?_, ?_⟩ <;> unfold deadAddr <;> decide

/-- A frame of number 0, fuel 41 and rpm 10001, valid (its CRC byte is computed at the defaults). -/
def outOfBound : State :=
  let bytes : List Byte := [0x00, 0, 0, 0, 0, 0, 0, 0, 0x29, 0x00, 0x00, 0x27, 0x11, 0x00]
  withRx (bytes ++ [crc8Compute Params.default bytes]) s1

/-- BoundedRegistersRejectSilently: the three values of the frame are out of bound, and the bounds'
own values are stored. -/
theorem witness_BoundedRegistersRejectSilently :
    outOfBound.rxlen = 15 ∧
      crc8Compute outOfBound.params (rxShown outOfBound 14) = rxAt outOfBound 14 ∧
      rxAt outOfBound 0 = 0 ∧ 40 < (rxAt outOfBound 8).toNat ∧
      10000 < be32 (rxAt outOfBound 9) (rxAt outOfBound 10) (rxAt outOfBound 11)
        (rxAt outOfBound 12) ∧
      gives (.wr 0x3A 0x10) { s1 with rpm := 0x2700 } (fun t => t.rpm == 10000) ∧
      gives (.wr 0x3A 0x11) { s1 with rpm := 0x2700 } (fun t => t.rpm == 0x2700) := by
  decide +kernel

/-- SafeRpmSequenceSetsAnyTarget: the two ends of the bound, and the rule's example. -/
theorem witness_SafeRpmSequenceSetsAnyTarget :
    ({ s1 with rpm := 10000 } : State).rpm.toNat ≤ 10000 ∧
      (0x27 : Byte).toNat * 256 + (0x10 : Byte).toNat = 10000 ∧
      (0x00 : Byte).toNat * 256 + (0x00 : Byte).toNat ≤ 10000 ∧
      ({ s1 with rpm := 0x00FF } : State).rpm = 0x00FF := by decide +kernel

/-- AckIsSetByEchoAndClearedByHost, BgfRecvChecksIdAndEcho: a match at the first and the last slot. -/
theorem witness_bgfRecv_match :
    let s := withRx [0x01, 0x01] sentEnds
    let t := withRx [0x05, 0x00] sentEnds
    s.params.valid = true ∧ s.rxlen = 2 ∧ s.cache[(0 : Fin 5)] = some ⟨rxAt s 0, rxAt s 1⟩ ∧
      s.params.bgfId[(0 : Fin 5)] = rxAt s 0 ∧
      t.rxlen = 2 ∧ t.cache[(4 : Fin 5)] = some ⟨rxAt t 0, rxAt t 1⟩ ∧
      t.params.bgfId[(4 : Fin 5)] = rxAt t 0 ∧
      gives .bgfRecv t (fun u => u.ack == 0b10000) := by decide +kernel

/-- BgfRecvChecksIdAndEcho: a wrong length, an unknown id, and a mismatched flag. -/
theorem witness_BgfRecvChecksIdAndEcho :
    let unknown := withRx [0x06, 0x01] sentEnds
    let differs := withRx [0x01, 0x02] sentEnds
    sentEnds.params.valid = true ∧ sentEnds.rxlen ≠ 2 ∧ unknown.rxlen = 2 ∧
      (∀ slot : Fin 5, unknown.params.bgfId[slot] ≠ rxAt unknown 0) ∧
      differs.rxlen = 2 ∧ differs.params.bgfId[(0 : Fin 5)] = rxAt differs 0 ∧
      differs.cache[(0 : Fin 5)] ≠ some ⟨rxAt differs 0, rxAt differs 1⟩ := by decide +kernel

/-- CmdWritePerformsItsCommand, NopChangesNothing, WrTermsAtWritePortsAgree: a command byte, its
instruction, and a state whose next access writes it. -/
theorem witness_CmdWritePerformsItsCommand :
    decodeAccess (.write 0x00 [0x38]) = .instr .bgfRecv ∧ Instr.bgfRecv ≠ .nop ∧
      echoing.params.valid = true ∧ echoing.pending = .access (.write 0x00 [0x38]) :: [] := by
  decide +kernel

/-- CrcDataWriteUpdatesCrc: two writes of one byte, of which a step takes the first. -/
theorem witness_CrcDataWriteUpdatesCrc :
    let s := { s1 with pending := [.access (.write 0x03 [0x01]), .access (.write 0x03 [0x01])] }
    s.params.valid = true ∧
      s.pending = .access (.write 0x03 [0x01]) :: [.access (.write 0x03 [0x01])] ∧
      steps s (fun t => t.crc == 0x07 && t.pending == [.access (.write 0x03 [0x01])]) := by
  decide +kernel

/-- RegisterWritesAreIdempotent: a write to ACK, a bounded write that is rejected, and one command
byte written twice (the double decode of 95 L2.3). -/
theorem witness_RegisterWritesAreIdempotent :
    (0x09 : Addr) ≠ 0x00 ∧ (0x09 : Addr) ≠ 0x03 ∧
      decodeAccess (.write 0x00 [0x10]) = .instr .muxDec ∧
      (match Host.Core.run Sys2Proof.core 2 { framed with
          pending := [.access (.write 0x00 [0x10]), .access (.write 0x00 [0x10]), .reset] } with
        | .next t => t.expframe == 3 && t.status == 0x05 && t.pending == [.reset]
        | .fault _ => false
        | .refused _ => false) = true ∧
      gives (.wr 0x09 0x01) { sent with ack := 0x1F } (fun t => t.ack == 0x1E) ∧
      gives (.wr 0x30 0x65) s1 (fun t => t.frameno == 1) := by decide +kernel

theorem witness_CrcUpdUpdatesCrcAlone :
    State.reset.params = Params.default ∧ State.reset.crc = 0x00 := by decide +kernel

/-- CrcRxFoldsReceiveBuffer: lengths 0, 15 over a valid frame, 16 and 17. -/
theorem witness_CrcRxFoldsReceiveBuffer :
    State.reset.rxlen = 0 ∧ framed.params.crcPoly.getLsbD 0 = true ∧ framed.rxlen = 15 ∧
      crc8Compute framed.params (rxShown framed 14) = rxAt framed 14 ∧
      ({ framed with rxlen := 16 } : State).rxlen.toNat ≤ 16 ∧
      16 < ({ framed with rxlen := 17 } : State).rxlen.toNat := by decide +kernel

/-- CrcTxFoldsTransmitBuffer: lengths 16 and 17; the invariant has its own witness. -/
theorem witness_CrcTxFoldsTransmitBuffer :
    ({ sent with txlen := 16 } : State).txlen.toNat ≤ 16 ∧
      16 < ({ sent with txlen := 17 } : State).txlen.toNat ∧
      Invariant echoing :=
  ⟨by decide +kernel, by decide +kernel, invariant_echoing⟩

/-- FoldLawHolds, LoadedBytesCrcEqualsFedBytes. -/
theorem witness_FoldLawHolds :
    State.reset.params = Params.default ∧ (frameBytes ++ [0xFF]).length ≤ 16 := by decide +kernel

/-- UpdateIsPolynomialRemainder, PolyOneIsXorChecksum. -/
theorem witness_PolyOneIsXorChecksum :
    ({ Params.default with crcPoly := 0x01 } : Params).crcPoly = 0x01 ∧
      ({ Params.default with crcPoly := 0x01 } : Params).crcReflect = false := by decide

/-- SingleByteCorruptionDetectedIffOddPoly: the counter-instance of 95 L1.2 at CRC_POLY = 0x06 (a
valid frame whose byte 3 is corrupted by 0x83 stays valid), a refused set. -/
theorem witness_SingleByteCorruptionDetectedIffOddPoly :
    let p := { Params.default with crcPoly := 0x06 }
    let bytes : List Byte := frameBytes.take 14
    let corrupted : List Byte := bytes.set 3 0x83
    (State.resetWith p).params.crcPoly.getLsbD 0 = false ∧
      crc8Compute p bytes = crc8Compute p corrupted := by decide +kernel

/-- A 15-byte vector that is a valid frame, and a mask. -/
theorem witness_validFrame :
    validFrame Params.default
      #v[0x01, 0x00, 0x00, 0x00, 0x0A, 0x32, 0x00, 0x00, 0x28, 0x00, 0x00, 0x00, 0x00, 0x00, 0x72] ∧
      (0x80 : Byte) ≠ 0 := ⟨by unfold validFrame; decide +kernel, by decide⟩

/-- CorruptedFrameIsRejected: the first and the last byte overwritten. -/
theorem witness_CorruptedFrameIsRejected :
    framed.params.crcPoly.getLsbD 0 = true ∧ framed.rxlen = 15 ∧
      crc8Compute framed.params (rxShown framed 14) = rxAt framed 14 ∧
      (0x02 : Byte) ≠ rxAt framed 0 ∧ (0x73 : Byte) ≠ rxAt framed 14 := by decide +kernel

/-- ResidueOfValidFrameIsZero, at the reflected set too (95 L1.3: its CRC byte is 0x1E). -/
theorem witness_ResidueOfValidFrameIsZero :
    Params.default.crcPoly.getLsbD 0 = true ∧ otherParams.crcPoly.getLsbD 0 = true ∧
      crc8Compute otherParams (frameBytes.take 14 ++ [0x1E]) = 0x00 ∧
      framed.params = Params.default := by decide +kernel

/-- CrcIsAffine: equal lengths, CRC_INIT 0. -/
theorem witness_CrcIsAffine :
    (frameBytes.take 14).length = (List.replicate 14 (0xFF : Byte)).length ∧
      Params.default.crcInit = 0x00 := by decide +kernel

/-- DecodersRejectWrongLength: the lengths beside each frame's own. -/
theorem witness_DecodersRejectWrongLength :
    ({ framed with rxlen := 14 } : State).rxlen ≠ 15 ∧ ({ framed with rxlen := 16 } : State).rxlen ≠ 15 ∧
      ({ framed with rxlen := 0 } : State).rxlen ≠ 1 ∧ ({ framed with rxlen := 2 } : State).rxlen ≠ 1 ∧
      ({ framed with rxlen := 1 } : State).rxlen ≠ 2 ∧ ({ framed with rxlen := 3 } : State).rxlen ≠ 2 := by
  decide +kernel

/-- SequenceCheckAlwaysAdvances: in sequence at 100, and out of sequence with a bad CRC. -/
theorem witness_SequenceCheckAlwaysAdvances :
    lastFrame.rxlen = 15 ∧ lastFrame.expframe = 100 ∧ rxAt lastFrame 0 = lastFrame.expframe ∧
      gives .muxDec (withRx (frameBytes.set 14 0x73) { s1 with expframe := 100 })
        (fun t => t.status == 0x06 && t.expframe == 1) := by decide +kernel

/-- MuxDecValidatesAndUnpacks: an accepted frame, a rejected one, and one that is one ahead. -/
theorem witness_MuxDecValidatesAndUnpacks :
    let bad := withRx (frameBytes.set 14 0x73) State.reset
    let ahead := withRx [0x03, 0, 0, 0, 0x07, 0, 0, 0, 0, 0, 0, 0, 0x09, 0, 0x8A] s1
    framed.rxlen = 15 ∧ crc8Compute framed.params (rxShown framed 14) = rxAt framed 14 ∧
      gives .muxDec framed (fun t => t.status.getLsbD 2 == false) ∧
      bad.rxlen = 15 ∧ crc8Compute bad.params (rxShown bad 14) ≠ rxAt bad 14 ∧
      ahead.rxlen = 15 ∧ rxAt ahead 0 = frameAfter ahead.expframe := by decide +kernel

/-- MuxEncPacksOutboundFrame, DerivedOutboundQuantities: the ends of the bounds. -/
theorem witness_DerivedOutboundQuantities :
    Bounds { s1 with fuel := 40, rpm := 10000, motor := 0x80 } ∧
      Bounds { s1 with fuel := 0, rpm := 0 } :=
  ⟨⟨by decide, by decide, by decide, by decide, by decide +kernel⟩,
    ⟨by decide, by decide, by decide, by decide, by decide +kernel⟩⟩

/-- MuxEncIgnoresStatusAndSequence. -/
theorem witness_MuxEncIgnoresStatusAndSequence :
    gives .muxEnc s1 (fun t => t.txlen == 10 && txAt t 7 == 100) := by decide +kernel

/-- The state after the decode of `framed`. -/
def decoded : State := { s1 with mem := framed.mem }

/-- EncodeAfterDecodeReturnsTelemetry: an accepted decode, then accesses that write flags, read
telemetry, shorten the frame and decode it again, which ends in LenError. -/
theorem witness_EncodeAfterDecodeReturnsTelemetry :
    framed.rxlen = 15 ∧ crc8Compute framed.params (rxShown framed 14) = rxAt framed 14 ∧
      gives .muxDec framed (fun t => t == decoded) ∧
      (match runScript [.wr 0x07 0x40, .rd 0x38, .wr 0x04 0x0E, .muxDec] decoded with
        | .next v => v.flags == 0x40 && v.fuel == 40 && v.status == 0x08
        | .fault _ => false
        | .refused _ => false) = true ∧
      (rxAt framed 8).toNat = 40 ∧
      be32 (rxAt framed 9) (rxAt framed 10) (rxAt framed 11) (rxAt framed 12) ≤ 10000 ∧
      ∀ i ∈ [Instr.wr 0x07 0x40, .rd 0x38, .wr 0x04 0x0E, .muxDec], WellFormed i :=
  ⟨by decide +kernel, by decide +kernel, by decide +kernel, by decide +kernel,
    by decide +kernel, by decide +kernel, by decide⟩

/-- The frame shortened: the MUX.DEC that follows accepts nothing and writes no telemetry. -/
theorem witness_keepsTelemetry : keepsTelemetry [.wr 0x04 0x0E, .muxDec] decoded := by
  refine ⟨?_, fun t ht => ⟨?_, fun _ _ => trivial⟩⟩
  · rintro (⟨h, -⟩ | ⟨a, v, h, ha⟩)
    · cases h
    · cases h
      revert ha
      unfold telemetryAddr
      decide
  · have h : exec (.wr 0x04 0x0E) decoded = .next { decoded with rxlen := 0x0E } := rfl
    cases h.symm.trans ht
    rintro (⟨-, h, -⟩ | ⟨a, v, h, -⟩)
    · exact absurd h (by decide +kernel)
    · cases h

/-- The write between addresses no telemetry register. -/
theorem witness_telemetryAddr :
    ¬ telemetryAddr 0x07 ∧ ¬ telemetryAddr 0x2F ∧ telemetryAddr 0x30 ∧ telemetryAddr 0x3C ∧
      ¬ telemetryAddr 0x3D := by
  refine ⟨?_, ?_, ?_, ?_, ?_⟩ <;> unfold telemetryAddr <;> decide

theorem witness_ComDecStoresCommandByte :
    (withRx [0xFF] State.reset).rxlen = 1 ∧ State.reset.rxlen ≠ 1 ∧ framed.rxlen ≠ 1 := by
  decide +kernel

/-- BgfSendProducesOrSuppresses: suppressed and produced, at the first and the last slot, and the
operands without a slot. -/
theorem witness_BgfSendProducesOrSuppresses :
    sentEnds.cache[(0 : Fin 5)] = some ⟨sentEnds.params.bgfId[(0 : Fin 5)], slotFlag sentEnds 0⟩ ∧
      sentEnds.cache[(4 : Fin 5)] = some ⟨sentEnds.params.bgfId[(4 : Fin 5)], slotFlag sentEnds 4⟩ ∧
      sentEnds.cache[(1 : Fin 5)] ≠ some ⟨sentEnds.params.bgfId[(1 : Fin 5)], slotFlag sentEnds 1⟩ ∧
      { sentEnds with flags := 0x08 }.cache[(4 : Fin 5)] ≠
        some ⟨sentEnds.params.bgfId[(4 : Fin 5)], slotFlag { sentEnds with flags := 0x08 } 4⟩ ∧
      5 ≤ (5 : BitVec 3).toNat ∧ 5 ≤ (7 : BitVec 3).toNat := by decide +kernel

/-- BgfSendEchoClearLaws: a send that produces, and a change of its flag in a unit that sends it. -/
theorem witness_BgfSendEchoClearLaws :
    State.reset.params.valid = true ∧
      gives (.bgfSend (slotOperand 4)) State.reset (fun u => u.status == 0x01 &&
        u.params.bgfFlagFieldIsId == false &&
        slotFlag { u with flags := 0x08 } 4 != slotFlag u 4) := by decide +kernel

/-- IdInFlagFieldSuppressesForever: the first send produces; between may stand FLAGS writes, sends
and decodes. -/
theorem witness_IdInFlagFieldSuppressesForever :
    (∀ i ∈ [Instr.wr 0x07 0xFF, .bgfSend 2, .bgfSend 3, .bgfRecv], WellFormed i) ∧
    (State.resetWith otherParams).params.bgfFlagFieldIsId = true ∧
      gives (.bgfSend (slotOperand 2)) (State.resetWith otherParams)
        (fun u => u.status == 0x01 && txAt u 1 == 0xFF) := by decide +kernel

/-- DrainedFramesOrTheirAckBits. -/
theorem witness_DrainedFramesOrTheirAckBits :
    sentEnds.params.valid = true ∧
      (match runScript (drainBgf [⟨0x05, 0x00⟩, ⟨0x09, 0x00⟩, ⟨0x01, 0x01⟩]) sentEnds with
        | .next t => t.ack == 0b10001
        | .fault _ => false
        | .refused _ => false) = true := by decide +kernel

/-- ReservedCodeOnlyReports. -/
theorem witness_ReservedCodeOnlyReports :
    reservedCode 0x04 = true ∧ reservedCode 0xFF = true := by decide

/-- StatusIsPerCommandAndNotSticky, ErrcntCountsIdErrorsOnly, OnlyTheNamedInstructionsWrite: each
class of instruction reaches a next state. -/
theorem witness_classes_of_instructions :
    isReportingCommand (.wr 0x0A 0x05) = false ∧ isReportingCommand .muxDec = true ∧
      gives (.wr 0x0A 0x05) s1 (fun t => t.errcnt == 0x05 && t.status == 0x01) ∧
      gives .muxDec framed (fun t => t.status == 0x01) ∧
      gives (.bgfSend 5) s1 (fun t => t.errcnt == 0x01) := by decide +kernel

end Sys2Proof.Tests
end

/-! SUPPORT. The parameter guard of the step (00_scope R7), and the frame of every instruction (10_state). -/

namespace Sys2Proof.Machine

/-! ### When a step refuses the parameter set -/

theorem performCommand_completes (c : Byte) (s : State) : ∃ t, performCommand c s = .next t := by
  unfold performCommand
  repeat' split
  all_goals exact ⟨_, rfl⟩

/-- No instruction stops the unit, the terms that no access decodes to included (20_memory R45). -/
theorem exec_completes (i : Instr) (s : State) : ∃ t, exec i s = .next t := by
  cases i with
  | wr a v =>
    show ∃ t, execWr a v s = .next t
    unfold execWr
    split
    · exact performCommand_completes v s
    all_goals exact ⟨_, rfl⟩
  | _ => exact ⟨_, rfl⟩

/-- An access may be refused for its width, never for the parameters. -/
theorem performAccess_ne_parameterSet (b : BusAccess) (s : State) :
    performAccess b s ≠ .refused .parameterSet := by
  unfold performAccess
  split
  next i _ =>
    obtain ⟨t, ht⟩ := exec_completes i s
    simp [ht]
  next => simp

theorem guardParams_eq_parameterSet {p : Params} {o : Host.Outcome State Fault Refusal}
    (ho : o ≠ .refused .parameterSet) :
    guardParams p o = .refused .parameterSet ↔ p.valid = false := by
  cases hv : p.valid <;> simp [guardParams, hv, ho]

/-- The step refuses the parameters exactly when they are not admitted, whatever is pending. -/
theorem step_eq_parameterSet (s : State) :
    step s = .refused .parameterSet ↔ s.params.valid = false := by
  unfold step
  split
  · exact guardParams_eq_parameterSet (by simp)
  · exact guardParams_eq_parameterSet (by simp)
  · exact guardParams_eq_parameterSet (performAccess_ne_parameterSet _ _)

/-! ### Which parameter sets are not admitted -/

theorem bgfId_nodup_iff (p : Params) :
    p.bgfId.toList.Nodup ↔ ∀ i j : Fin 5, p.bgfId[i] = p.bgfId[j] → i = j := by
  have hl : p.bgfId.toList = List.ofFn fun i : Fin 5 => p.bgfId[i] := by
    refine List.ext_getElem (by rw [Vector.length_toList, List.length_ofFn]) fun k _ _ => ?_
    rw [List.getElem_ofFn, Vector.getElem_toList, Fin.getElem_fin]
  rw [hl, List.nodup_ofFn]
  rfl

theorem params_valid_iff (p : Params) :
    p.valid = true ↔ p.crcPoly.getLsbD 0 = true ∧
      (∀ n ∈ [p.tyreBit, p.brakesBit, p.battDischBit, p.battKoBit, p.motorBitA, p.motorBitB,
        p.motorBitC], n ≤ 7) ∧
      p.tyreBit ≠ p.brakesBit ∧ p.battDischBit ≠ p.battKoBit ∧ p.motorBitA ≠ p.motorBitB ∧
      p.motorBitA ≠ p.motorBitC ∧ p.motorBitB ≠ p.motorBitC ∧
      ∀ i j : Fin 5, p.bgfId[i] = p.bgfId[j] → i = j := by
  simp only [← bgfId_nodup_iff, Params.valid, Bool.and_eq_true, decide_eq_true_eq, bne_iff_ne,
    List.forall_mem_cons, List.not_mem_nil, false_imp_iff, implies_true, and_true, and_assoc]

/-- Settles O9: the step's guard is `Params.valid`, and the listed breaches are its negation. -/
theorem badParameterSetsAreRefused : Obligations.BadParameterSetsAreRefused := by
  intro s
  rw [step_eq_parameterSet, ← Bool.not_eq_true, params_valid_iff]
  simp only [not_and_or, Bool.not_eq_true, not_forall, not_le, ne_eq, not_not, exists_prop,
    and_comm]

/-! ### The frame of every instruction -/

/-- `s` with the state pieces that `i` may change taken from `t`: by name for the commands, CRC.UPD
and RD (10_state R17 to R32); for a host write everything but what the host cannot write
(10_state R13). -/
def changedBy (i : Instr) (s t : State) : State :=
  match i with
  | .nop => s
  | .crcInit | .crcRx | .crcTx => { s with status := t.status, crc := t.crc }
  | .muxDec =>
    { s with
      status := t.status, expframe := t.expframe, frameno := t.frameno, dist := t.dist
      speed := t.speed, chassis := t.chassis, motor := t.motor, fuel := t.fuel, rpm := t.rpm
      batt := t.batt, lastcrc := t.lastcrc }
  | .muxEnc => { s with status := t.status, mem := t.mem, txlen := t.txlen }
  | .comDec => { s with status := t.status, cmds := t.cmds }
  | .bgfSend _ =>
    { s with
      status := t.status, errcnt := t.errcnt, mem := t.mem, txlen := t.txlen, cache := t.cache }
  | .bgfRecv =>
    { s with
      status := t.status, errcnt := t.errcnt, ack := t.ack, bgfRxid := t.bgfRxid
      bgfRxflag := t.bgfRxflag }
  | .reserved _ => { s with status := t.status }
  | .crcUpd _ => { s with crc := t.crc }
  | .wr _ _ =>
    { t with
      params := s.params, status := s.status, txlen := s.txlen, cmds := s.cmds
      bgfRxid := s.bgfRxid, bgfRxflag := s.bgfRxflag, cache := s.cache, pending := s.pending
      readData := s.readData }
  | .rd _ => { s with readData := t.readData }

section
variable {i : Instr} {s t : State}

theorem changedBy_crcOverBuffer (bytes : Nat → List Byte) (n : Nat) (s : State) :
    crcOverBuffer bytes n s = changedBy .crcRx s (crcOverBuffer bytes n s) := by
  rcases crcOverBuffer_cases bytes n s with ⟨_, he⟩ | ⟨_, he⟩ <;> rw [he] <;> rfl

theorem exec_wr_eq {a : Addr} {v : Byte} (hw : WellFormed (.wr a v))
    (h : exec (.wr a v) s = .next t) : t = writeRegister (regAt a) v s := by
  obtain ⟨h0, h3⟩ : a ≠ 0x00 ∧ a ≠ 0x03 := by simpa [WellFormed, wellFormed] using hw
  exact Host.Outcome.next.inj (h.symm.trans (exec_wr_register h0 h3 v s))

theorem changedBy_writeRegister (r : Reg) (a : Addr) (v : Byte) (s : State) :
    writeRegister r v s = changedBy (.wr a v) s (writeRegister r v s) := by
  cases r <;> rfl

/-- The frame of every instruction: the next state differs from the old one at most in the pieces
that the instruction may change. -/
theorem exec_frame (hw : WellFormed i) (h : exec i s = .next t) : t = changedBy i s t := by
  cases i with
  | nop | crcInit | muxEnc | reserved _ | crcUpd _ | rd _ => cases h; rfl
  | crcRx | crcTx => cases h; exact changedBy_crcOverBuffer _ _ s
  | muxDec =>
    rcases execMuxDec_cases s with ⟨_, he⟩ | ⟨_, _, he⟩ | ⟨_, _, he⟩ <;>
      cases h.symm.trans he <;> rfl
  | comDec =>
    rcases execComDec_cases s with ⟨_, he⟩ | ⟨_, he⟩ <;> cases h.symm.trans he <;> rfl
  | bgfSend operand =>
    rcases execBgfSend_cases operand s with ⟨_, he⟩ | ⟨_, _, ⟨_, he⟩ | ⟨_, he⟩⟩ <;>
      cases h.symm.trans he <;> rfl
  | bgfRecv =>
    rcases execBgfRecv_cases s with ⟨_, he⟩ | ⟨_, ⟨_, he⟩ | ⟨_, _, ⟨_, he⟩ | ⟨_, he⟩⟩⟩ <;>
      cases h.symm.trans he <;> rfl
  | wr a v => rw [exec_wr_eq hw h]; exact changedBy_writeRegister _ a v s

/-! ### The buffers -/

theorem exec_mem (hw : WellFormed i) (h : exec i s = .next t) (henc : i ≠ .muxEnc)
    (hsend : ∀ slot, i ≠ .bgfSend slot) (hwr : ∀ a v, i ≠ .wr a v) : t.mem = s.mem := by
  rw [exec_frame hw h]
  cases i with
  | muxEnc => exact absurd rfl henc
  | bgfSend slot => exact absurd rfl (hsend slot)
  | wr a v => exact absurd rfl (hwr a v)
  | _ => rfl

theorem exec_bgfSend_rxByte {operand : BitVec 3} (h : exec (.bgfSend operand) s = .next t) {k : Nat}
    (hk : k < 16) : rxByte t k = rxByte s k := by
  rcases execBgfSend_cases operand s with ⟨_, he⟩ | ⟨_, _, ⟨_, he⟩ | ⟨_, he⟩⟩ <;>
    cases h.symm.trans he
  · rfl
  · rfl
  · exact rxByte_produceFrame _ s hk

/-- Only the host fills RXBUF: a produced frame goes to TXBUF (10_state R19, R21). -/
theorem exec_rxAt (hw : WellFormed i) (h : exec i s = .next t) (hwr : ∀ a v, i ≠ .wr a v) {k : Nat}
    (hk : k < 16) : rxAt t k = rxAt s k := by
  rw [rxAt_eq hk, rxAt_eq hk]
  cases i with
  | muxEnc => cases h; exact rxByte_produceFrame _ s hk
  | bgfSend operand => exact exec_bgfSend_rxByte h hk
  | _ => rw [rxByte, rxByte, exec_mem hw h (by simp) (by simp) hwr]

theorem exec_txAt (hw : WellFormed i) (h : exec i s = .next t) (henc : i ≠ .muxEnc)
    (hsend : ∀ slot, i ≠ .bgfSend slot) (hwr : ∀ a v, i ≠ .wr a v) {k : Nat} (hk : k < 16) :
    txAt t k = txAt s k := by
  rw [txAt_eq hk, txAt_eq hk, txByte, txByte, exec_mem hw h henc hsend hwr]

/-! ### CRC, EXPFRAME and the telemetry under host writes -/

theorem writeRegister_crc {r : Reg} (hr : r ≠ .crc) (v : Byte) (s : State) :
    (writeRegister r v s).crc = s.crc := by
  cases r with
  | crc => exact absurd rfl hr
  | _ => rfl

theorem writeRegister_expframe {r : Reg} (hr : r ≠ .expframe) (v : Byte) (s : State) :
    (writeRegister r v s).expframe = s.expframe := by
  cases r with
  | expframe => exact absurd rfl hr
  | _ => rfl

theorem exec_wr_crc {a : Addr} {v : Byte} (hw : WellFormed (.wr a v))
    (h : exec (.wr a v) s = .next t) (ha : a ≠ 0x02) : t.crc = s.crc := by
  rw [exec_wr_eq hw h]
  exact writeRegister_crc (fun hr => ha (regAt_injective (b := 0x02) hr (by simp [hr]))) v s

theorem exec_wr_expframe {a : Addr} {v : Byte} (hw : WellFormed (.wr a v))
    (h : exec (.wr a v) s = .next t) (ha : a ≠ 0x06) : t.expframe = s.expframe := by
  rw [exec_wr_eq hw h]
  exact writeRegister_expframe (fun hr => ha (regAt_injective (b := 0x06) hr (by simp [hr]))) v s

/-- The registers that hold telemetry (10_state R29). -/
def telemetryReg : Reg → Bool
  | .frameno | .dist _ | .speed | .chassis | .motor | .fuel | .rpmHi | .rpmLo | .batt
  | .lastcrc => true
  | _ => false

theorem telemetryAddr_of_telemetryReg :
    ∀ a : Addr, telemetryReg (regAt a) = true → telemetryAddr a := by
  unfold telemetryAddr; decide

/-- The telemetry registers of two states agree (10_state R29). -/
def sameTelemetry (s t : State) : Prop :=
  t.frameno = s.frameno ∧ t.dist = s.dist ∧ t.speed = s.speed ∧ t.chassis = s.chassis ∧
    t.motor = s.motor ∧ t.fuel = s.fuel ∧ t.rpm = s.rpm ∧ t.batt = s.batt ∧ t.lastcrc = s.lastcrc

theorem writeRegister_sameTelemetry {r : Reg} (hr : telemetryReg r = false) (v : Byte) (s : State) :
    sameTelemetry s (writeRegister r v s) := by
  cases r with
  | frameno | dist _ | speed | chassis | motor | fuel | rpmHi | rpmLo | batt | lastcrc => cases hr
  | _ => exact ⟨rfl, rfl, rfl, rfl, rfl, rfl, rfl, rfl, rfl⟩

theorem exec_sameTelemetry (hw : WellFormed i) (h : exec i s = .next t) (hdec : i ≠ .muxDec)
    (hwr : ∀ a v, i = .wr a v → ¬ telemetryAddr a) : sameTelemetry s t := by
  cases i with
  | muxDec => exact absurd rfl hdec
  | wr a v =>
    rw [exec_wr_eq hw h]
    refine writeRegister_sameTelemetry (Bool.eq_false_iff.2 fun hr => ?_) v s
    exact hwr a v rfl (telemetryAddr_of_telemetryReg a hr)
  | _ => rw [exec_frame hw h]; exact ⟨rfl, rfl, rfl, rfl, rfl, rfl, rfl, rfl, rfl⟩

theorem exec_crc (hw : WellFormed i) (h : exec i s = .next t) (hinit : i ≠ .crcInit)
    (hrx : i ≠ .crcRx) (htx : i ≠ .crcTx) (hupd : ∀ b, i ≠ .crcUpd b)
    (hwr : ∀ v, i ≠ .wr 0x02 v) : t.crc = s.crc := by
  cases i with
  | crcInit => exact absurd rfl hinit
  | crcRx => exact absurd rfl hrx
  | crcTx => exact absurd rfl htx
  | crcUpd b => exact absurd rfl (hupd b)
  | wr a v => exact exec_wr_crc hw h fun ha => hwr v (by rw [ha])
  | _ => rw [exec_frame hw h]; rfl

theorem exec_expframe (hw : WellFormed i) (h : exec i s = .next t) (hdec : i ≠ .muxDec)
    (hwr : ∀ v, i ≠ .wr 0x06 v) : t.expframe = s.expframe := by
  cases i with
  | muxDec => exact absurd rfl hdec
  | wr a v => exact exec_wr_expframe hw h fun ha => hwr v (by rw [ha])
  | _ => rw [exec_frame hw h]; rfl

/-! ### The pieces that no host write changes, and those that only one changes -/

theorem exec_params (hw : WellFormed i) (h : exec i s = .next t) : t.params = s.params := by
  rw [exec_frame hw h]; cases i <;> rfl

theorem exec_pending (hw : WellFormed i) (h : exec i s = .next t) : t.pending = s.pending := by
  rw [exec_frame hw h]; cases i <;> rfl

theorem exec_readData (hw : WellFormed i) (h : exec i s = .next t) (hrd : ∀ a, i ≠ .rd a) :
    t.readData = s.readData := by
  rw [exec_frame hw h]
  cases i with
  | rd a => exact absurd rfl (hrd a)
  | _ => rfl

theorem exec_rxlen_flags (hw : WellFormed i) (h : exec i s = .next t) (hwr : ∀ a v, i ≠ .wr a v) :
    t.rxlen = s.rxlen ∧ t.flags = s.flags := by
  rw [exec_frame hw h]
  cases i with
  | wr a v => exact absurd rfl (hwr a v)
  | _ => exact ⟨rfl, rfl⟩

theorem exec_cmds (hw : WellFormed i) (h : exec i s = .next t) (hcom : i ≠ .comDec) :
    t.cmds = s.cmds := by
  rw [exec_frame hw h]
  cases i with
  | comDec => exact absurd rfl hcom
  | _ => rfl

theorem exec_bgfRxid_bgfRxflag (hw : WellFormed i) (h : exec i s = .next t) (hrecv : i ≠ .bgfRecv) :
    t.bgfRxid = s.bgfRxid ∧ t.bgfRxflag = s.bgfRxflag := by
  rw [exec_frame hw h]
  cases i with
  | bgfRecv => exact absurd rfl hrecv
  | _ => exact ⟨rfl, rfl⟩

theorem exec_cache (hw : WellFormed i) (h : exec i s = .next t)
    (hsend : ∀ slot, i ≠ .bgfSend slot) : t.cache = s.cache := by
  rw [exec_frame hw h]
  cases i with
  | bgfSend slot => exact absurd rfl (hsend slot)
  | _ => rfl

theorem exec_txlen (hw : WellFormed i) (h : exec i s = .next t) (henc : i ≠ .muxEnc)
    (hsend : ∀ slot, i ≠ .bgfSend slot) : t.txlen = s.txlen := by
  rw [exec_frame hw h]
  cases i with
  | muxEnc => exact absurd rfl henc
  | bgfSend slot => exact absurd rfl (hsend slot)
  | _ => rfl

end

/-- Settles O56: each piece of state by its own lemma, read off `exec_frame` where no address matters. -/
theorem onlyTheNamedInstructionsWrite : Obligations.OnlyTheNamedInstructionsWrite := by
  intro i s t hw h
  refine ⟨exec_params hw h, exec_pending hw h, exec_readData hw h, fun hwr => ?_,
    exec_cmds hw h, exec_bgfRxid_bgfRxflag hw h, exec_cache hw h, exec_txlen hw h,
    fun henc hsend hwr _ => exec_txAt hw h henc hsend hwr, exec_expframe hw h, exec_crc hw h,
    exec_sameTelemetry hw h⟩
  obtain ⟨hrxlen, hflags⟩ := exec_rxlen_flags hw h hwr
  exact ⟨hrxlen, hflags, fun _ => exec_rxAt hw h hwr⟩

end Sys2Proof.Machine

/-! SUPPORT. The invariant and the bounds (10_state R31), and what STATUS, ERRCNT, ACK and the write
ports do (10_state R14, R16, R18, R26, R27, R30). -/

namespace Sys2Proof

/-! ### Decoded instructions -/

theorem wellFormed_decodeCommand (c : Byte) : WellFormed (decodeCommand c) := by
  rcases decodeCommand_cases c with ⟨_, h⟩ | ⟨_, h⟩ | ⟨_, h⟩ | ⟨_, h⟩ | ⟨_, h⟩ | ⟨_, h⟩ | ⟨_, h⟩ |
    ⟨_, _, h⟩ | ⟨_, h⟩ | ⟨hc, h⟩ <;> rw [h]
  on_goal 10 => exact hc
  all_goals rfl

/-- What a command byte decodes to is carried by a write of that byte to CMD (30_encoding R55). -/
theorem encode_decodeCommand (c : Byte) : encode (decodeCommand c) = .write 0x00 [c] := by
  rcases decodeCommand_cases c with ⟨hc, h⟩ | ⟨hc, h⟩ | ⟨hc, h⟩ | ⟨hc, h⟩ | ⟨hc, h⟩ | ⟨hc, h⟩ |
    ⟨hc, h⟩ | ⟨_, hc, h⟩ | ⟨hc, h⟩ | ⟨_, h⟩ <;> rw [h]
  on_goal 10 => rfl
  all_goals rw [hc]; rfl

/-- The decoder answers well-formed instructions only: a write to CMD or CRC_DATA never decodes to
WR. -/
theorem decodeAccess_wellFormed {b : BusAccess} {i : Instr} (h : decodeAccess b = .instr i) :
    WellFormed i := by
  rcases decodeAccess_cases h with ⟨a, _, rfl⟩ | ⟨a, v, _, rfl⟩
  · rfl
  · by_cases h0 : a = 0x00
    · subst h0; exact wellFormed_decodeCommand v
    by_cases h3 : a = 0x03
    · subst h3; rfl
    · rw [decodeWrite_other h0 h3]
      simpa [WellFormed, wellFormed] using ⟨h0, h3⟩

end Sys2Proof

namespace Sys2Proof.Machine

/-! ### The step on an access -/

theorem step_access {s : State} {b : BusAccess} {rest : List HostInput} {i : Instr}
    (hv : s.params.valid = true) (hp : s.pending = .access b :: rest)
    (hd : decodeAccess b = .instr i) : step s = exec i { s with pending := rest } := by
  have ht : takeInput s = some (.access b, { s with pending := rest }) := by
    simp only [takeInput, hp]
  simp only [step, ht, guardParams, hv, if_true, performAccess, hd]

/-- Settles O23: the access decodes to CRC.UPD, whose meaning is the update. -/
theorem crcDataWriteUpdatesCrc : Obligations.CrcDataWriteUpdatesCrc := by
  refine ⟨fun s b rest hv hp => ?_, fun s b => ⟨rfl, rfl⟩, fun s => rfl⟩
  rw [step_access hv hp (decodeAccess_write 0x03 b)]
  rfl

/-- Settles O22: the byte decodes to the command whose code it is, and the step performs that. -/
theorem cmdWritePerformsItsCommand : Obligations.CmdWritePerformsItsCommand := by
  refine ⟨fun s c rest hv hp => ?_, fun s => rfl⟩
  have hd : decodeAccess (.write 0x00 [c]) = .instr (decodeCommand c) := rfl
  exact ⟨decodeCommand c, hd, encode_decodeCommand c, step_access hv hp hd⟩

/-! ### STATUS -/

section
variable {i : Instr} {s t : State}

theorem seqWarning_cases (leading expected : Byte) :
    seqWarning leading expected = 0 ∨ seqWarning leading expected = 0x04 := by
  unfold seqWarning
  split
  · exact .inr rfl
  · exact .inl rfl

/-- A reporting command ends with one of the listed codes, and never with the reset value
(60_exceptions R98). -/
theorem exec_status_legal (hr : isReportingCommand i = true) (h : exec i s = .next t) :
    t.status ∈ legalStatus ∧ t.status ≠ 0x00 := by
  rcases exec_command_cases hr h with ⟨_, rfl⟩ | ⟨_, rfl | ⟨_, rfl⟩⟩ | ⟨_, hdec⟩ | ⟨_, rfl⟩ |
    ⟨_, rfl | rfl⟩ | ⟨_, rfl | rfl | ⟨_, rfl⟩⟩ | ⟨_, rfl | rfl | ⟨_, rfl⟩ | rfl⟩ | ⟨_, rfl⟩
  case inr.inr.inl =>
    rcases seqWarning_cases (rxByte s 0) s.expframe with hs | hs <;>
      rcases hdec with rfl | rfl | rfl <;>
      simp only [complete_status, raiseReport_status, hs] <;> decide
  all_goals simp only [complete_status, raiseReport_status]; decide

theorem exec_status (hw : WellFormed i) (hr : isReportingCommand i = false)
    (h : exec i s = .next t) : t.status = s.status := by
  rw [exec_frame hw h]
  cases i with
  | nop | crcUpd _ | wr _ _ | rd _ => rfl
  | _ => cases hr

/-- No command reads STATUS, and every reporting command overwrites it whole (10_state R16). -/
theorem exec_of_status (hr : isReportingCommand i = true) (s : State) (x : Byte) :
    exec i { s with status := x } = exec i s := by
  cases i with
  | nop | crcUpd _ | wr _ _ | rd _ => cases hr
  | _ => rfl

end

/-- Settles O54: other instructions by the frame, reporting commands by their endings. -/
theorem statusIsPerCommandAndNotSticky : Obligations.StatusIsPerCommandAndNotSticky := by
  intro i s t hw h
  refine ⟨fun hr => exec_status hw hr h, fun hr => ?_⟩
  obtain ⟨hlegal, hne⟩ := exec_status_legal hr h
  exact ⟨hlegal, hne, fun x => (exec_of_status hr s x).trans h⟩

/-! ### ERRCNT -/

section
variable {i : Instr} {s t : State}

theorem regAt_eq_iff {a b : Addr} (hb : regAt b ≠ .reserved) : regAt a = regAt b ↔ a = b :=
  ⟨fun h => regAt_injective h (h ▸ hb), fun h => h ▸ rfl⟩

theorem writeRegister_errcnt (r : Reg) (v : Byte) (s : State) :
    (writeRegister r v s).errcnt = if r = .errcnt then v else s.errcnt := by
  cases r <;> rfl

theorem exec_wr_errcnt {a : Addr} {v : Byte} (hw : WellFormed (.wr a v))
    (h : exec (.wr a v) s = .next t) : t.errcnt = if a = 0x0A then v else s.errcnt := by
  have ha : regAt a = .errcnt ↔ a = 0x0A := regAt_eq_iff (b := 0x0A) (by decide)
  simp only [exec_wr_eq hw h, writeRegister_errcnt, ha]

/-- A BGF command counts exactly when it ends in IdError, whose code no other ending has. -/
theorem exec_bgf_errcnt (hi : (∃ slot, i = .bgfSend slot) ∨ i = .bgfRecv)
    (h : exec i s = .next t) :
    t.errcnt = if t.status = 0x10 then s.errcnt + 1 else s.errcnt := by
  rcases hi with ⟨slot, rfl⟩ | rfl
  · rcases execBgfSend_cases slot s with ⟨_, he⟩ | ⟨_, _, ⟨_, he⟩ | ⟨_, he⟩⟩ <;>
      cases h.symm.trans he <;> rfl
  · rcases execBgfRecv_cases s with ⟨_, he⟩ | ⟨_, ⟨_, he⟩ | ⟨_, _, ⟨_, he⟩ | ⟨_, he⟩⟩⟩ <;>
      cases h.symm.trans he <;> rfl

theorem ofNat_succ_mod (b : Byte) : BitVec.ofNat 8 ((b.toNat + 1) % 256) = b + 1 := by
  apply BitVec.eq_of_toNat_eq
  simp

end

/-- Settles O55: the BGF commands and the host write by their own lemmas, the rest by the frame. -/
theorem errcntCountsIdErrorsOnly : Obligations.ErrcntCountsIdErrorsOnly := by
  intro i s t hw h
  cases i with
  | bgfSend slot => simpa only [ofNat_succ_mod] using exec_bgf_errcnt (.inl ⟨slot, rfl⟩) h
  | bgfRecv => simpa only [ofNat_succ_mod] using exec_bgf_errcnt (.inr rfl) h
  | wr a v => exact exec_wr_errcnt hw h
  | _ => rw [exec_frame hw h]; rfl

/-! ### ACK -/

section
variable {i : Instr} {s t : State}

theorem writeRegister_ack {r : Reg} (hr : r ≠ .ack) (v : Byte) (s : State) :
    (writeRegister r v s).ack = s.ack := by
  cases r with
  | ack => exact absurd rfl hr
  | _ => rfl

/-- Only BGF.RECV and the host's write to ACK touch ACK (10_state R26). -/
theorem exec_ack (hw : WellFormed i) (h : exec i s = .next t) (hrecv : i ≠ .bgfRecv)
    (hwr : ∀ v, i ≠ .wr 0x09 v) : t.ack = s.ack := by
  cases i with
  | bgfRecv => exact absurd rfl hrecv
  | wr a v =>
    have ha : regAt a ≠ .ack := fun hr =>
      hwr v (by rw [(regAt_eq_iff (b := 0x09) (by decide)).1 hr])
    rw [exec_wr_eq hw h, writeRegister_ack ha]
  | _ => rw [exec_frame hw h]; rfl

theorem memRead_ack_reserved (s : State) : (memRead s 0x09).extractLsb' 5 3 = 0 := by
  show (s.ack.setWidth 8).extractLsb' 5 3 = 0
  generalize s.ack = x
  revert x; decide

theorem getLsbD_memRead_ack (s : State) (k : Nat) :
    (memRead s 0x09).getLsbD k = s.ack.getLsbD k := by
  show (s.ack.setWidth 8).getLsbD k = _
  rw [BitVec.getLsbD_setWidth]
  by_cases hk : k < 8
  · simp [hk]
  · simp [hk, BitVec.getLsbD_of_ge s.ack k (by omega)]

/-- Write 1 to clear, bit by bit. -/
theorem getLsbD_clearAck (v : Byte) (s : State) (k : Nat) :
    (clearAck v s).ack.getLsbD k = (decide (k < 5) && s.ack.getLsbD k && !v.getLsbD k) := by
  by_cases hk : k < 5 <;> simp [hk]

theorem getLsbD_setAckBit (slot : Fin 5) (s : State) {k : Nat} (hk : k < 5) :
    (setAckBit slot s).ack.getLsbD k = (s.ack.getLsbD k || decide (k = slot.val)) := by
  rw [setAckBit_ack, BitVec.getLsbD_or]
  congr 1
  revert slot
  interval_cases k <;> decide

theorem ackBit_eq : ∀ slot : Fin 5, 1#5 <<< slot.val = BitVec.ofNat 5 (2 ^ slot.val) := by decide

/-- The slot that `slot_of` answers has the id, in any parameter set (10_state R33). -/
theorem bgfId_of_slotOf {p : Params} {id : Byte} {slot : Fin 5} (h : slotOf p id = some slot) :
    p.bgfId[slot] = id := by
  unfold slotOf at h
  split_ifs at h with h0 h1 h2 h3 h4 <;> cases h
  exacts [h0.symm, h1.symm, h2.symm, h3.symm, h4.symm]

/-- A BGF.RECV of the cached message of its slot sets the slot's bit (42_serial R92). -/
theorem exec_bgfRecv_echo {slot : Fin 5} (hlen : s.rxlen = 2)
    (hslot : slotOf s.params (rxByte s 0) = some slot)
    (hc : s.cache[slot] = some ⟨rxByte s 0, rxByte s 1⟩) :
    exec .bgfRecv s = .next (complete statusAcked (setAckBit slot
      { s with bgfRxid := rxByte s 0, bgfRxflag := rxByte s 1 })) := by
  rcases execBgfRecv_cases s with ⟨hn, _⟩ | ⟨_, ⟨hn, _⟩ | ⟨k, hk, ⟨_, he⟩ | ⟨hn, _⟩⟩⟩
  · exact absurd (by rw [hlen]; rfl) hn
  · cases hslot.symm.trans hn
  · cases hslot.symm.trans hk; exact he
  · cases hslot.symm.trans hk; exact absurd hc hn

/-- A BGF.RECV that changes ACK ends in the acknowledging case. -/
theorem exec_bgfRecv_ack_ne (h : exec .bgfRecv s = .next t) (hne : t.ack ≠ s.ack) :
    s.rxlen.toNat = 2 ∧ ∃ slot, slotOf s.params (rxByte s 0) = some slot ∧
      s.cache[slot] = some ⟨rxByte s 0, rxByte s 1⟩ ∧
      t = complete statusAcked (setAckBit slot
        { s with bgfRxid := rxByte s 0, bgfRxflag := rxByte s 1 }) := by
  rcases execBgfRecv_cases s with ⟨_, he⟩ | ⟨hlen, ⟨_, he⟩ | ⟨slot, hs, ⟨hc, he⟩ | ⟨_, he⟩⟩⟩ <;>
    cases h.symm.trans he
  case inr.inr.inl => exact ⟨hlen, slot, hs, hc, rfl⟩
  all_goals exact absurd rfl hne

end

/-- Settles O21: the bits of the clear and of the echo, and the endings of BGF.RECV. -/
theorem ackIsSetByEchoAndClearedByHost : Obligations.AckIsSetByEchoAndClearedByHost := by
  refine ⟨fun s v => ⟨clearAck v s, ?_, rfl, fun k _ => ?_⟩, memRead_ack_reserved,
    fun s hv hlen slot hc hid => ?_, fun s t h hne => ?_, fun i s t => exec_ack⟩
  · exact exec_wr_register (by decide) (by decide) v s
  · rw [getLsbD_memRead_ack, getLsbD_memRead_ack, getLsbD_clearAck]
  · rw [rxAt_eq (by decide), rxAt_eq (by decide)] at hc
    rw [rxAt_eq (by decide)] at hid
    have hslot : slotOf s.params (rxByte s 0) = some slot := hid ▸ slotOf_bgfId hv slot
    exact ⟨_, exec_bgfRecv_echo hlen hslot hc, fun k hk => getLsbD_setAckBit slot _ hk⟩
  · obtain ⟨hlen, slot, hs, hc, rfl⟩ := exec_bgfRecv_ack_ne h hne
    rw [rxAt_eq (by decide), rxAt_eq (by decide)]
    refine ⟨BitVec.eq_of_toNat_eq hlen, rfl, slot, bgfId_of_slotOf hs, fun _ => hs, hc, ?_⟩
    rw [complete_ack, setAckBit_ack, ackBit_eq]

/-! ### The bounded registers -/

section
variable (v : Byte) (s : State)

theorem exec_wr_rpmHi_eq :
    exec (.wr 0x39 v) s = .next (setRpm (be16 v (byteK 0 s.rpm)) s) :=
  exec_wr_register (by decide) (by decide) v s

theorem exec_wr_rpmLo_eq :
    exec (.wr 0x3A v) s = .next (setRpm (be16 (byteK 1 s.rpm) v) s) :=
  exec_wr_register (by decide) (by decide) v s

theorem exec_wr_fuel_eq : exec (.wr 0x38 v) s = .next (setFuel v s) :=
  exec_wr_register (by decide) (by decide) v s

theorem exec_wr_frameno_eq : exec (.wr 0x30 v) s = .next (setFrameno v s) :=
  exec_wr_register (by decide) (by decide) v s

theorem exec_wr_expframe_eq : exec (.wr 0x06 v) s = .next (setExpframe v s) :=
  exec_wr_register (by decide) (by decide) v s

theorem unpackTelemetry_frameno : (unpackTelemetry s).frameno =
    if frameInBound (rxByte s 0) then rxByte s 0 else s.frameno := rfl

theorem unpackTelemetry_fuel : (unpackTelemetry s).fuel =
    if fuelInBound (rxByte s 8) then rxByte s 8 else s.fuel := rfl

theorem unpackTelemetry_rpm : (unpackTelemetry s).rpm =
    if rpmInBound (be32 (rxByte s 9) (rxByte s 10) (rxByte s 11) (rxByte s 12)) then
      BitVec.ofNat 16 (be32 (rxByte s 9) (rxByte s 10) (rxByte s 11) (rxByte s 12))
    else s.rpm := rfl
end

@[simp] theorem rxByte_advanceExpframe (s : State) (k : Nat) :
    rxByte (advanceExpframe s) k = rxByte s k := rfl

theorem exec_muxDec_accepted {s : State} (h : muxAccepts s) : exec .muxDec s =
    .next (complete (seqWarning (rxByte s 0) s.expframe) (unpackTelemetry (advanceExpframe s))) := by
  obtain ⟨hlen, hcrc⟩ := (muxAccepts_iff s).1 h
  rcases execMuxDec_cases s with ⟨hn, _⟩ | ⟨_, _, he⟩ | ⟨_, hn, _⟩
  · exact absurd hlen hn
  · exact he
  · cases hcrc.symm.trans hn

theorem be16_byteK_zero (v : Byte) (rpm : BitVec 16) :
    be16 v (byteK 0 rpm) = v.toNat * 256 + rpm.toNat % 256 := by
  simp [be16, byteK_toNat]

theorem be16_byteK_one (v : Byte) (rpm : BitVec 16) :
    be16 (byteK 1 rpm) v = rpm.toNat / 256 * 256 + v.toNat := by
  have := rpm.isLt
  simp only [be16, byteK_toNat]
  omega

/-- Settles O19: each host write is its bounded setter; MUX.DEC goes through the same setters. -/
theorem boundedRegistersRejectSilently : Obligations.BoundedRegistersRejectSilently := by
  intro s v
  refine ⟨?_, ?_, ?_, ?_, ?_, fun hlen hcrc => ⟨_, exec_muxDec_accepted ⟨hlen, hcrc⟩, ?_⟩⟩
  · simp only [exec_wr_rpmHi_eq, setRpm, be16_byteK_zero, rpmInBound_iff]
  · simp only [exec_wr_rpmLo_eq, setRpm, be16_byteK_one, rpmInBound_iff]
  · simp only [exec_wr_fuel_eq, setFuel, fuelInBound_iff]
  · simp only [exec_wr_frameno_eq, setFrameno, frameInBound_iff]
  · simp only [exec_wr_expframe_eq, setExpframe, frameInBound_iff]
  · simp only [rxAt_eq, Nat.reduceLT]
    refine ⟨fun hv => ?_, fun hv => ?_, fun hv => ?_, ?_⟩
    · have hb : ¬ (1 ≤ (rxByte s 0).toNat ∧ (rxByte s 0).toNat ≤ 100) := by
        rcases hv with hv | hv
        · omega
        · simp [hv]
      simp only [complete_frameno, unpackTelemetry_frameno, rxByte_advanceExpframe,
        frameInBound_iff, if_neg hb, advanceExpframe_frameno]
    · simp only [complete_fuel, unpackTelemetry_fuel, rxByte_advanceExpframe,
        fuelInBound_iff, if_neg (Nat.not_le.2 hv), advanceExpframe_fuel]
    · simp only [complete_rpm, unpackTelemetry_rpm, rxByte_advanceExpframe,
        rpmInBound_iff, if_neg (Nat.not_le.2 hv), advanceExpframe_rpm]
    · rw [complete_status]
      rcases seqWarning_cases (rxByte s 0) s.expframe with hs | hs <;> rw [hs]
      · exact .inl rfl
      · exact .inr rfl

/-! ### Every instruction keeps the bounds -/

section
variable {i : Instr} {s t : State}

/-- The bounds read four registers; the clause about ACK holds in every state. -/
theorem bounds_of_eq (hb : Bounds s) (hfuel : t.fuel = s.fuel) (hrpm : t.rpm = s.rpm)
    (hexp : t.expframe = s.expframe) (hno : t.frameno = s.frameno) : Bounds t where
  fuel := hfuel ▸ hb.fuel
  rpm := hrpm ▸ hb.rpm
  expframe := hexp ▸ hb.expframe
  frameno := hno ▸ hb.frameno
  ack := memRead_ack_reserved t

theorem setFuel_bounds (hb : Bounds s) (v : Byte) : Bounds (setFuel v s) where
  fuel := by
    rw [setFuel_fuel]
    split
    · exact (fuelInBound_iff v).1 ‹_›
    · exact hb.fuel
  rpm := hb.rpm
  expframe := hb.expframe
  frameno := hb.frameno
  ack := memRead_ack_reserved _

theorem setRpm_bounds (hb : Bounds s) (n : Nat) : Bounds (setRpm n s) where
  fuel := hb.fuel
  rpm := by
    rw [setRpm_rpm]
    split
    · have hn : n ≤ 10000 := (rpmInBound_iff n).1 ‹_›
      rw [BitVec.toNat_ofNat]
      omega
    · exact hb.rpm
  expframe := hb.expframe
  frameno := hb.frameno
  ack := memRead_ack_reserved _

theorem setFrameno_bounds (hb : Bounds s) (v : Byte) : Bounds (setFrameno v s) where
  fuel := hb.fuel
  rpm := hb.rpm
  expframe := hb.expframe
  frameno := by
    rw [setFrameno_frameno]
    split
    · exact .inr ((frameInBound_iff v).1 ‹_›)
    · exact hb.frameno
  ack := memRead_ack_reserved _

theorem setExpframe_bounds (hb : Bounds s) (v : Byte) : Bounds (setExpframe v s) where
  fuel := hb.fuel
  rpm := hb.rpm
  expframe := by
    rw [setExpframe_expframe]
    split
    · exact (frameInBound_iff v).1 ‹_›
    · exact hb.expframe
  frameno := hb.frameno
  ack := memRead_ack_reserved _

theorem nextFrame_inBound {v : Byte} (h : 1 ≤ v.toNat ∧ v.toNat ≤ 100) :
    1 ≤ (nextFrame v).toNat ∧ (nextFrame v).toNat ≤ 100 := by
  rw [nextFrame_eq]
  split
  · decide
  · bv_omega

theorem advanceExpframe_bounds (hb : Bounds s) : Bounds (advanceExpframe s) where
  fuel := hb.fuel
  rpm := hb.rpm
  expframe := nextFrame_inBound hb.expframe
  frameno := hb.frameno
  ack := memRead_ack_reserved _

/-- MUX.DEC unpacks the bounded fields through their setters (10_state R30). -/
theorem unpackTelemetry_bounds (hb : Bounds s) : Bounds (unpackTelemetry s) := by
  refine setRpm_bounds (setFuel_bounds (setFrameno_bounds ?_ _) _) _
  exact bounds_of_eq hb rfl rfl rfl rfl

theorem writeRegister_bounds (hb : Bounds s) (r : Reg) (v : Byte) :
    Bounds (writeRegister r v s) := by
  cases r with
  | expframe => exact setExpframe_bounds hb v
  | frameno => exact setFrameno_bounds hb v
  | fuel => exact setFuel_bounds hb v
  | rpmHi | rpmLo => exact setRpm_bounds hb _
  | _ => exact bounds_of_eq hb rfl rfl rfl rfl

theorem exec_muxDec_bounds (hb : Bounds s) (h : exec .muxDec s = .next t) : Bounds t := by
  have hadv := advanceExpframe_bounds hb
  rcases execMuxDec_cases s with ⟨_, he⟩ | ⟨_, _, he⟩ | ⟨_, _, he⟩ <;> cases h.symm.trans he
  · exact bounds_of_eq hb rfl rfl rfl rfl
  · exact bounds_of_eq (unpackTelemetry_bounds hadv) rfl rfl rfl rfl
  · exact bounds_of_eq hadv rfl rfl rfl rfl

theorem exec_bounds (hw : WellFormed i) (h : exec i s = .next t) (hb : Bounds s) : Bounds t := by
  cases i with
  | muxDec => exact exec_muxDec_bounds hb h
  | wr a v => rw [exec_wr_eq hw h]; exact writeRegister_bounds hb _ v
  | _ => rw [exec_frame hw h]; exact bounds_of_eq hb rfl rfl rfl rfl

/-! ### Every instruction keeps the invariant -/

theorem exec_bgfSend_txlen {operand : BitVec 3} (h : exec (.bgfSend operand) s = .next t) :
    t.txlen = 0 ∨ t.txlen = 2 := by
  rcases execBgfSend_cases operand s with ⟨_, he⟩ | ⟨_, _, ⟨_, he⟩ | ⟨_, he⟩⟩ <;>
    cases h.symm.trans he
  · exact .inl rfl
  · exact .inl rfl
  · exact .inr rfl

/-- TXLEN is the length of the latest frame produced, if any (10_state R22). -/
theorem exec_txlen_legal (hw : WellFormed i) (h : exec i s = .next t)
    (hs : s.txlen = 0 ∨ s.txlen = 2 ∨ s.txlen = 10) :
    t.txlen = 0 ∨ t.txlen = 2 ∨ t.txlen = 10 := by
  cases i with
  | muxEnc => cases h; exact .inr (.inr rfl)
  | bgfSend operand => exact (exec_bgfSend_txlen h).imp_right .inl
  | _ => rw [exec_txlen hw h (by simp) (by simp)]; exact hs

theorem exec_status_mem_legal (hw : WellFormed i) (h : exec i s = .next t)
    (hs : s.status ∈ legalStatus) : t.status ∈ legalStatus := by
  cases hr : isReportingCommand i with
  | false => rw [exec_status hw hr h]; exact hs
  | true => exact (exec_status_legal hr h).1

theorem produceFrame_mem_wf (hm : s.mem.wf = true) {bytes : List Byte} (hl : bytes.length ≤ 16) :
    (produceFrame bytes s).mem.wf = true :=
  memory_wf_writeBytes hm (by simp [txCell]) (by simp [txCell]; omega)

theorem writeRegister_mem_wf (hm : s.mem.wf = true) {r : Reg} (hr : regIndexOk r = true) (v : Byte) :
    (writeRegister r v s).mem.wf = true := by
  cases r with
  | rxbuf k | txbuf k =>
    have hk : k < 16 := by simpa [regIndexOk] using hr
    exact memory_wf_write hm (by simp only [rxCell, txCell]; omega)
      (by simp only [rxCell, txCell]; omega) v
  | _ => exact hm

theorem exec_bgfSend_mem_wf {operand : BitVec 3} (h : exec (.bgfSend operand) s = .next t)
    (hm : s.mem.wf = true) : t.mem.wf = true := by
  rcases execBgfSend_cases operand s with ⟨_, he⟩ | ⟨_, _, ⟨_, he⟩ | ⟨_, he⟩⟩ <;>
    cases h.symm.trans he
  · exact hm
  · exact hm
  · exact produceFrame_mem_wf hm (by simp)

theorem exec_mem_wf (hw : WellFormed i) (h : exec i s = .next t) (hm : s.mem.wf = true) :
    t.mem.wf = true := by
  cases i with
  | muxEnc => cases h; exact produceFrame_mem_wf hm (by simp [muxOutFrame])
  | bgfSend operand => exact exec_bgfSend_mem_wf h hm
  | wr a v => rw [exec_wr_eq hw h]; exact writeRegister_mem_wf hm (regIndexOk_regAt a) v
  | _ => rw [exec_mem hw h (by simp) (by simp) (by simp)]; exact hm

/-- Every valid cache entry is a message of its own slot with a flag byte the unit produces: the
cache clause of `Invariant`. -/
def CacheLegal (s : State) : Prop :=
  ∀ (slot : Fin 5) (msg : BgfMessage), s.cache[slot] = some msg →
    msg.id = s.params.bgfId[slot] ∧
      (if s.params.bgfFlagFieldIsId then msg.flag = msg.id else msg.flag = 0 ∨ msg.flag = 1)

theorem cacheLegal_of_eq (hc : CacheLegal s) (hcache : t.cache = s.cache)
    (hparams : t.params = s.params) : CacheLegal t := by
  unfold CacheLegal
  rw [hcache, hparams]
  exact hc

theorem zextBit_cases (b : Bool) : zextBit b = 0 ∨ zextBit b = 1 := by
  cases b
  · exact .inl rfl
  · exact .inr rfl

/-- The message that a send records is a legal entry of its slot (42_serial R90). -/
theorem recordSent_cacheLegal (hc : CacheLegal s) (slot : Fin 5) :
    CacheLegal (recordSent slot (bgfMessage s.params s.flags slot) s) := by
  intro k msg hk
  have hset :
      (s.cache.set slot.val (some (bgfMessage s.params s.flags slot)))[k.val] = some msg := hk
  rw [Vector.getElem_set] at hset
  split at hset
  · obtain rfl : slot = k := Fin.ext ‹_›
    cases hset
    refine ⟨rfl, ?_⟩
    rw [recordSent_params]
    split
    · simp [bgfMessage, *]
    · simpa [bgfMessage, *] using zextBit_cases _
  · exact hc k msg hset

theorem exec_bgfSend_cacheLegal {operand : BitVec 3} (h : exec (.bgfSend operand) s = .next t)
    (hc : CacheLegal s) : CacheLegal t := by
  rcases execBgfSend_cases operand s with ⟨_, he⟩ | ⟨slot, _, ⟨_, he⟩ | ⟨_, he⟩⟩ <;>
    cases h.symm.trans he
  · exact cacheLegal_of_eq hc rfl rfl
  · exact cacheLegal_of_eq hc rfl rfl
  · exact cacheLegal_of_eq (recordSent_cacheLegal hc slot) rfl rfl

theorem exec_cacheLegal (hw : WellFormed i) (h : exec i s = .next t) (hc : CacheLegal s) :
    CacheLegal t := by
  cases i with
  | bgfSend operand => exact exec_bgfSend_cacheLegal h hc
  | _ => exact cacheLegal_of_eq hc (exec_cache hw h (by simp)) (exec_params hw h)

theorem exec_invariant (hw : WellFormed i) (h : exec i s = .next t) (hi : Invariant s) :
    Invariant t where
  params := exec_params hw h ▸ hi.params
  bounds := exec_bounds hw h hi.bounds
  txlen := exec_txlen_legal hw h hi.txlen
  status := exec_status_mem_legal hw h hi.status
  mem := exec_mem_wf hw h hi.mem
  cache := exec_cacheLegal hw h hi.cache

/-! ### Every step keeps the invariant -/

/-- The queue is no part of the invariant. -/
theorem invariant_setPending (hi : Invariant s) (rest : List HostInput) :
    Invariant { s with pending := rest } where
  params := hi.params
  bounds := bounds_of_eq hi.bounds rfl rfl rfl rfl
  txlen := hi.txlen
  status := hi.status
  mem := hi.mem
  cache := hi.cache

/-- The reset action establishes the invariant in a unit whose parameters are admitted. -/
theorem invariant_resetUnit (hp : s.params.valid = true) : Invariant (resetUnit s) where
  params := hp
  bounds :=
    { fuel := by simp
      rpm := by simp
      expframe := by simp
      frameno := .inl rfl
      ack := memRead_ack_reserved _ }
  txlen := .inl rfl
  status := by rw [resetUnit_status]; decide
  mem := rfl
  cache := fun slot msg h => by simp at h

end

/-- Settles O13: a step holds the state, resets the unit, or performs a well-formed instruction. -/
theorem stepKeepsInvariant : Obligations.StepKeepsInvariant := by
  intro s t hi h
  obtain ⟨hv, ⟨_, rfl⟩ | ⟨rest, _, rfl⟩ | ⟨b, rest, i, _, hd, he⟩⟩ := step_cases h
  · exact hi
  · exact invariant_resetUnit hv
  · exact exec_invariant (decodeAccess_wellFormed hd) he (invariant_setPending hi rest)

/-! ### Reachable states -/

section
variable {i : Instr} {s t : State}

/-- What every step keeps, every run keeps. -/
theorem run_keeps {P : State → Prop} (hstep : ∀ s t, P s → step s = .next t → P t) {k : Nat}
    (hs : P s) (h : Host.Core.run Sys2Proof.core k s = .next t) : P t := by
  induction k generalizing s with
  | zero => cases h; exact hs
  | succ k ih =>
    cases hu : step s with
    | next u => exact ih (hstep s u hs hu) (run_succ_next k hu ▸ h)
    | fault r => cases r
    | refused r =>
      have hu' : Sys2Proof.core.step s = .refused r := hu
      simp [Host.Core.run, hu'] at h

/-- A term that no access decodes to has the meaning of one that some access does: WR to CMD or
CRC_DATA that of the access it spells, `reserved` that of any reserved code. -/
theorem exists_wellFormed_exec_eq (i : Instr) (s : State) :
    ∃ j, WellFormed j ∧ exec j s = exec i s := by
  cases i with
  | reserved c => exact ⟨.reserved 0x04, rfl, rfl⟩
  | wr a v =>
    by_cases h0 : a = 0x00
    · subst h0
      refine ⟨decodeCommand v, wellFormed_decodeCommand v, ?_⟩
      show _ = performCommand v s
      unfold decodeCommand performCommand
      simp only [apply_ite (exec · s)]
      rfl
    by_cases h3 : a = 0x03
    · subst h3; exact ⟨.crcUpd v, rfl, rfl⟩
    · exact ⟨.wr a v, by simpa [WellFormed, wellFormed] using ⟨h0, h3⟩, rfl⟩
  | _ => exact ⟨_, rfl, rfl⟩

theorem ne_zero_of_frameInBound {v : Byte} (h : frameInBound v = true) : v ≠ 0 := by
  rintro rfl
  cases h

theorem setFrameno_frameno_ne_zero (hs : s.frameno ≠ 0) (v : Byte) :
    (setFrameno v s).frameno ≠ 0 := by
  rw [setFrameno_frameno]
  split
  · exact ne_zero_of_frameInBound ‹_›
  · exact hs

theorem writeRegister_frameno_ne_zero (hs : s.frameno ≠ 0) (r : Reg) (v : Byte) :
    (writeRegister r v s).frameno ≠ 0 := by
  cases r with
  | frameno => exact setFrameno_frameno_ne_zero hs v
  | _ => exact hs

theorem exec_muxDec_frameno_ne_zero (hs : s.frameno ≠ 0) (h : exec .muxDec s = .next t) :
    t.frameno ≠ 0 := by
  rcases execMuxDec_cases s with ⟨_, he⟩ | ⟨_, _, he⟩ | ⟨_, _, he⟩ <;> cases h.symm.trans he
  · exact hs
  · exact setFrameno_frameno_ne_zero (s := s) hs (rxByte s 0)
  · exact hs

/-- No access brings FRAMENO back to 0: every write to it is bounded (10_state R30, R31). -/
theorem exec_frameno_ne_zero (h : exec i s = .next t) (hs : s.frameno ≠ 0) : t.frameno ≠ 0 := by
  obtain ⟨j, hw, hj⟩ := exists_wellFormed_exec_eq i s
  rw [← hj] at h
  cases j with
  | muxDec => exact exec_muxDec_frameno_ne_zero hs h
  | wr a v => rw [exec_wr_eq hw h]; exact writeRegister_frameno_ne_zero hs _ v
  | _ => rw [exec_frame hw h]; exact hs

end

/-- Settles O14: the bounds as part of the invariant along every run from reset, and FRAMENO by
its setter. -/
theorem boundsHoldInReachableStates : Obligations.BoundsHoldInReachableStates := by
  refine ⟨fun p inputs k t hp h => ?_, fun i s t => exec_frameno_ne_zero,
    fun s hlen hcrc hlo hhi => ?_⟩
  · have hreset : Invariant { State.resetWith p with pending := inputs } :=
      invariant_resetUnit (s := { State.resetWith p with pending := inputs }) hp
    exact (run_keeps stepKeepsInvariant hreset h).bounds
  · rw [rxAt_eq (by decide)] at hlo hhi ⊢
    have hb : frameInBound (rxByte s 0) = true := (frameInBound_iff _).2 ⟨hlo, hhi⟩
    have hno : (unpackTelemetry (advanceExpframe s)).frameno = rxByte s 0 :=
      (unpackTelemetry_frameno _).trans (if_pos hb)
    exact ⟨_, exec_muxDec_accepted ⟨hlen, hcrc⟩, hno,
      fun h0 => ne_zero_of_frameInBound hb (hno.symm.trans h0)⟩

end Sys2Proof.Machine

/-! SUPPORT. The host's accesses (20_memory R36 to R46): which the decoder takes, what a read shows,
what a write stores, and how a queue of accesses runs as a script. -/

namespace Sys2Proof

/-! ### Widths, and the access of an instruction -/

theorem decodeAccess_of_width_eq_one {b : BusAccess} (h : b.width = 1) :
    ∃ i, decodeAccess b = .instr i := by
  match b, h with
  | .read a _, rfl => exact ⟨.rd a, rfl⟩
  | .write a [v], _ => exact ⟨decodeWrite a v, rfl⟩

theorem decodeAccess_of_width_ne_one {b : BusAccess} (h : b.width ≠ 1) :
    decodeAccess b = .reject (.badWidth b.width) := by
  match b, h with
  | .read _ _, h => exact if_neg h
  | .write _ [], _ => rfl
  | .write _ [_], h => exact absurd rfl h
  | .write _ (_ :: _ :: _), _ => rfl

/-- The access that carries a well-formed instruction decodes to it (30_encoding R55, R65). -/
theorem decodeAccess_encode {i : Instr} (hw : WellFormed i) :
    decodeAccess (encode i) = .instr i := by
  cases i with
  | bgfSend slot => exact congrArg Decoded.instr (decodeCommand_bgfSend slot)
  | reserved c => exact congrArg Decoded.instr (decodeCommand_reserved c hw)
  | wr a v =>
    obtain ⟨h0, h3⟩ : a ≠ 0x00 ∧ a ≠ 0x03 := by simpa [WellFormed, wellFormed] using hw
    exact congrArg Decoded.instr (decodeWrite_other h0 h3 v)
  | _ => rfl

/-- A byte written to CMD is the access of the command it decodes to. -/
theorem encode_of_decodeAccess_cmd {c : Byte} {i : Instr}
    (h : decodeAccess (.write 0x00 [c]) = .instr i) : encode i = .write 0x00 [c] := by
  obtain rfl : decodeCommand c = i := Decoded.instr.inj h
  exact encode_decodeCommand c

end Sys2Proof

namespace Sys2Proof.Machine

/-! ### What a step does with the access at the head of the queue -/

/-- Settles O6: with admitted parameters the step is the decoded instruction's meaning. -/
theorem stepRunsDecodedInstruction : Obligations.StepRunsDecodedInstruction :=
  fun _ _ _ _ hv hp hd => step_access hv hp hd

theorem step_eq_accessWidth {s : State} {b : BusAccess} {rest : List HostInput}
    (hv : s.params.valid = true) (hp : s.pending = .access b :: rest) (hb : b.width ≠ 1) :
    step s = .refused (.accessWidth b.width) := by
  have ht : takeInput s = some (.access b, { s with pending := rest }) := by
    simp only [takeInput, hp]
  simp only [step, ht, guardParams, hv, if_true, performAccess, decodeAccess_of_width_ne_one hb]

/-- Settles O7: the decoder by the form of the access, and the step's refusal of what it rejects. -/
theorem onlyOneByteAccessesAreTaken : Obligations.OnlyOneByteAccessesAreTaken :=
  ⟨fun _ => decodeAccess_of_width_eq_one, fun _ _ _ => step_eq_accessWidth⟩

/-- Settles O53: the meanings have no stopping branch (20_memory R45). -/
theorem everyInstructionCompletes : Obligations.EveryInstructionCompletes :=
  exec_completes

/-! ### The write ports (20_memory R37) -/

/-- Performing the command of a byte is the meaning of the instruction the byte decodes to. -/
theorem performCommand_eq_exec (c : Byte) (s : State) :
    performCommand c s = exec (decodeCommand c) s := by
  unfold decodeCommand performCommand
  simp only [apply_ite (exec · s)]
  rfl

/-- Settles O58: the term WR to CMD performs the command, the term WR to CRC_DATA feeds CRC. -/
theorem wrTermsAtWritePortsAgree : Obligations.WrTermsAtWritePortsAgree := by
  refine ⟨fun s c i hd => ?_, fun _ _ => rfl⟩
  obtain rfl : decodeCommand c = i := Decoded.instr.inj hd
  exact performCommand_eq_exec c s

/-! ### Reads (20_memory R36) -/

theorem exec_rd (a : Addr) (s : State) :
    exec (.rd a) s = .next { s with readData := some (memRead s a) } := rfl

@[simp] theorem memRead_setReadData (s : State) (d : Option Byte) (a : Addr) :
    memRead { s with readData := d } a = memRead s a := rfl

/-- Settles O16: a read changes only the byte handed to the host, which no read depends on. -/
theorem readsHaveNoSideEffect : Obligations.ReadsHaveNoSideEffect := by
  intro s a
  exact ⟨_, exec_rd a s, rfl, fun b => memRead_setReadData s _ b, rfl, exec_rd a _⟩

theorem readsAs_of_memRead {s : State} {a : Addr} {v : Byte} (h : memRead s a = v) :
    readsAs s a v := by
  rw [readsAs, exec_rd, h]

theorem regAt_reserved_low : ∀ a : Addr, 0x0D ≤ a → a ≤ 0x0F → regAt a = .reserved := by decide

theorem regAt_reserved_high : ∀ a : Addr, 0x3D ≤ a → regAt a = .reserved := by decide

theorem memRead_reserved {a : Addr} (h : regAt a = .reserved) (s : State) : memRead s a = 0x00 := by
  rw [memRead, h]; rfl

/-- The 32 buffer addresses read the cells of the buffer memory (20_memory R44). -/
theorem memRead_buffer {i : Nat} (h : i < 32) (s : State) :
    memRead s (BitVec.ofNat 8 (0x10 + i)) = s.mem.read (0x10 + i) := by
  by_cases hi : i < 16
  · exact rxAt_eq hi s
  · obtain ⟨k, rfl⟩ : ∃ k, i = 0x10 + k := ⟨i - 0x10, by omega⟩
    rw [← Nat.add_assoc]
    exact txAt_eq (by omega) s

/-- Settles O15: the named registers by the map, the buffers and the reserved ranges by their
lemmas. -/
theorem readsShowTheRegisterMap : Obligations.ReadsShowTheRegisterMap := by
  intro s
  have hlow : ∀ a : Addr, 0x0D ≤ a → a ≤ 0x0F → readsAs s a 0x00 := fun a h h' =>
    readsAs_of_memRead (memRead_reserved (regAt_reserved_low a h h') s)
  have hbuf : ∀ i < 32, readsAs s (BitVec.ofNat 8 (0x10 + i)) (s.mem.read (0x10 + i)) :=
    fun _ h => readsAs_of_memRead (memRead_buffer h s)
  have hhigh : ∀ a : Addr, 0x3D ≤ a → readsAs s a 0x00 := fun a h =>
    readsAs_of_memRead (memRead_reserved (regAt_reserved_high a h) s)
  have htwice : ∀ a : Addr, ∃ t, exec (.rd a) s = .next t ∧ exec (.rd a) t = .next t := fun a => by
    obtain ⟨t, ht, _, _, _, ht'⟩ := readsHaveNoSideEffect s a
    exact ⟨t, ht, ht'⟩
  exact ⟨rfl, rfl, rfl, rfl, rfl, rfl, rfl, rfl, rfl, rfl, rfl, rfl, rfl, hlow, hbuf, rfl, rfl, rfl,
    rfl, rfl, rfl, rfl, rfl, rfl, rfl, rfl, rfl, rfl, hhigh, htwice⟩

/-! ### Writes (20_memory R37) -/

theorem accessType_of_storeAddr : ∀ a : Addr, storeAddr a → accessType (regAt a) = .rw := by
  unfold storeAddr; decide

theorem accessType_of_deadAddr :
    ∀ a : Addr, deadAddr a → accessType (regAt a) = .r ∨ accessType (regAt a) = .reserved := by
  unfold deadAddr; decide

/-- A write anywhere but at the two W registers performs the register's write rule. -/
theorem exec_wr_of_accessType_ne_w {a : Addr} (h : accessType (regAt a) ≠ .w) (v : Byte)
    (s : State) : exec (.wr a v) s = .next (writeRegister (regAt a) v s) :=
  exec_wr_register (by rintro rfl; exact h rfl) (by rintro rfl; exact h rfl) v s

theorem writeRegister_readOnly {r : Reg} (h : accessType r = .r ∨ accessType r = .reserved)
    (v : Byte) (s : State) : writeRegister r v s = s := by
  cases r with
  | status | txlen | cmds | bgfRxid | bgfRxflag | reserved => rfl
  | _ => rcases h with h | h <;> cases h

/-- Settles O18: the dead addresses hold R registers and reserved ones, whose write rule does
nothing. -/
theorem deadWritesChangeNothing : Obligations.DeadWritesChangeNothing := by
  intro s a v ha
  have hr := accessType_of_deadAddr a ha
  have hw : accessType (regAt a) ≠ .w := by rcases hr with h | h <;> rw [h] <;> decide
  rw [exec_wr_of_accessType_ne_w hw, writeRegister_readOnly hr]

/-- Reads after a write at an RW address: the byte there, every other address as before. -/
theorem memRead_writeRegister {a : Addr} (ha : accessType (regAt a) = .rw) (v : Byte) (s : State)
    (b : Addr) :
    memRead (writeRegister (regAt a) v s) b = if b = a then v else memRead s b := by
  have hne : regAt a ≠ .reserved := fun h => by rw [h] at ha; cases ha
  simp only [memRead,
    readRegister_writeRegister ha (regIndexOk_regAt a) (regIndexOk_regAt b), regAt_eq_iff hne]

/-- Settles O17: the RW addresses hold RW registers, whose write reads back there and only there. -/
theorem plainWritesStoreTheirByte : Obligations.PlainWritesStoreTheirByte := by
  intro s a v ha
  have hrw := accessType_of_storeAddr a ha
  refine ⟨_, exec_wr_of_accessType_ne_w (by rw [hrw]; decide) v s, ?_, fun b hb => ?_, ?_⟩
  · rw [memRead_writeRegister hrw, if_pos rfl]
  · rw [memRead_writeRegister hrw, if_neg fun h => hb (List.mem_singleton.2 h)]
  · exact ⟨writeRegister_params _ v s, writeRegister_cache _ v s, writeRegister_pending _ v s,
      writeRegister_readData _ v s⟩

/-! ### A register written twice (20_memory R38) -/

theorem memory_erase_eq_self {m : Memory} {a : Nat} (h : ∀ c ∈ m, c.1 ≠ a) : m.erase a = m := by
  induction m with
  | nil => rfl
  | cons c m ih =>
    obtain ⟨hc, hm⟩ := List.forall_mem_cons.1 h
    rw [Memory.erase, if_neg hc, ih hm]

theorem memory_erase_insert {m : Memory} {a : Nat} (h : ∀ c ∈ m, c.1 ≠ a) (v : Byte) :
    (m.insert a v).erase a = m := by
  induction m with
  | nil => simp [Memory.insert, Memory.erase]
  | cons c m ih =>
    obtain ⟨hc, hm⟩ := List.forall_mem_cons.1 h
    rw [Memory.insert]
    split
    · rw [Memory.erase, if_pos rfl, memory_erase_eq_self h]
    · rw [Memory.erase, if_neg hc, ih hm]

theorem memory_erase_write (m : Memory) (a : Nat) (v : Byte) :
    (m.write a v).erase a = m.erase a := by
  unfold Memory.write
  split
  · exact memory_erase_eq_self memory_erase_ne
  · exact memory_erase_insert memory_erase_ne v

theorem memory_write_congr {m n : Memory} {a : Nat} (h : m.erase a = n.erase a) (v : Byte) :
    m.write a v = n.write a v := by
  unfold Memory.write
  rw [h]

/-- The later of two writes to a cell decides, in any memory. -/
theorem memory_write_write (m : Memory) (a : Nat) (v w : Byte) :
    (m.write a v).write a w = m.write a w :=
  memory_write_congr (memory_erase_write m a v) w

/-- Bit by bit: byte `k` is the new byte, the other bits are kept (20_memory R40). -/
theorem getLsbD_setByteK (k : Nat) (b : Byte) {n : Nat} (v : BitVec n) {i : Nat} (hi : i < n) :
    (setByteK k b v).getLsbD i =
      if 8 * k ≤ i ∧ i < 8 * k + 8 then b.getLsbD (i - 8 * k) else v.getLsbD i := by
  have hmask : (0xFF : BitVec n).getLsbD (i - 8 * k) = decide (i - 8 * k < 8) := by
    show (BitVec.ofNat n (2 ^ 8 - 1)).getLsbD _ = _
    rw [BitVec.getLsbD_ofNat, Nat.testBit_two_pow_sub_one, decide_eq_true (by omega : _ < n),
      Bool.true_and]
  simp only [setByteK, BitVec.getLsbD_or, BitVec.getLsbD_and, BitVec.getLsbD_not,
    BitVec.getLsbD_shiftLeft, BitVec.getLsbD_setWidth, hmask, hi]
  by_cases hlo : i < 8 * k
  · simp [hlo, Nat.not_le.2 hlo]
  by_cases hhi : i < 8 * k + 8
  · simp [hlo, hhi, Nat.not_lt.1 hlo, show i - 8 * k < 8 by omega, show i - 8 * k < n by omega]
  · simp [hlo, hhi, show ¬ i - 8 * k < 8 by omega,
      BitVec.getLsbD_of_ge b (i - 8 * k) (by omega)]

/-- The later of two writes of a byte of a register decides. -/
theorem setByteK_setByteK (k : Nat) (b c : Byte) {n : Nat} (v : BitVec n) :
    setByteK k c (setByteK k b v) = setByteK k c v := by
  refine BitVec.eq_of_getLsbD_eq fun i hi => ?_
  simp only [getLsbD_setByteK _ _ _ hi]
  split <;> rfl

theorem byteK_zero_be16 (h l : Byte) : byteK 0 (BitVec.ofNat 16 (be16 h l)) = l := by
  apply BitVec.eq_of_toNat_eq
  have := h.isLt
  have := l.isLt
  simp only [byteK_toNat, BitVec.toNat_ofNat, be16]
  omega

theorem byteK_one_be16 (h l : Byte) : byteK 1 (BitVec.ofNat 16 (be16 h l)) = h := by
  apply BitVec.eq_of_toNat_eq
  have := h.isLt
  have := l.isLt
  simp only [byteK_toNat, BitVec.toNat_ofNat, be16]
  omega

/-- A bounded RPM write whose value is a function of RPM, done twice: once the value is stored the
function gives it again, and a value out of bound is rejected again. -/
theorem setRpm_twice {f : BitVec 16 → Nat} (hf : ∀ x, f (BitVec.ofNat 16 (f x)) = f x)
    (s : State) :
    setRpm (f (setRpm (f s.rpm) s).rpm) (setRpm (f s.rpm) s) = setRpm (f s.rpm) s := by
  unfold setRpm
  cases h : rpmInBound (f s.rpm)
  · simp [h]
  · simp [h, hf]

/-- A second write of a byte to a register changes nothing (20_memory R38). -/
theorem writeRegister_twice (r : Reg) (v : Byte) (s : State) :
    writeRegister r v (writeRegister r v s) = writeRegister r v s := by
  cases r with
  | rpmHi =>
    exact setRpm_twice (f := fun x => be16 v (byteK 0 x)) (fun _ => by rw [byteK_zero_be16]) s
  | rpmLo =>
    exact setRpm_twice (f := fun x => be16 (byteK 1 x) v) (fun _ => by rw [byteK_one_be16]) s
  | rxbuf i | txbuf i => simp only [writeRegister, memory_write_write]
  | dist k => simp only [writeRegister, setByteK_setByteK]
  | ack => simp only [writeRegister, clearAck, BitVec.and_assoc, BitVec.and_self]
  | expframe => simp only [writeRegister, setExpframe]; split <;> rfl
  | frameno => simp only [writeRegister, setFrameno]; split <;> rfl
  | fuel => simp only [writeRegister, setFuel]; split <;> rfl
  | _ => rfl

/-! ### A queue of accesses (20_memory R43, R46) -/

/-- The state with another queue of host inputs. -/
def withPending (q : List HostInput) (s : State) : State := { s with pending := q }

section
variable {i : Instr} {s t : State} (q : List HostInput)

theorem crcOverBuffer_withPending (bytes : Nat → List Byte) (n : Nat) (s : State) :
    crcOverBuffer bytes n (withPending q s) = withPending q (crcOverBuffer bytes n s) := by
  unfold crcOverBuffer
  split <;> rfl

/- The commands branch on what the queue is no part of, so the new queue moves into the branches,
and each of them ends in an update of other fields. -/

theorem execMuxDec_withPending (h : execMuxDec s = .next t) :
    execMuxDec (withPending q s) = .next (withPending q t) := by
  cases h
  simp only [apply_ite (withPending q)]
  rfl

theorem execComDec_withPending (h : execComDec s = .next t) :
    execComDec (withPending q s) = .next (withPending q t) := by
  cases h
  simp only [apply_ite (withPending q)]
  rfl

theorem sendMessage_withPending (slot : Fin 5) (s : State) :
    sendMessage slot (withPending q s) = withPending q (sendMessage slot s) := by
  simp only [sendMessage, apply_ite (withPending q)]
  rfl

theorem execBgfSend_withPending {operand : BitVec 3} (h : execBgfSend operand s = .next t) :
    execBgfSend operand (withPending q s) = .next (withPending q t) := by
  cases h
  unfold execBgfSend
  cases namedSlot operand with
  | none => rfl
  | some slot => exact congrArg _ (sendMessage_withPending q slot s)

theorem acceptMessage_withPending (slot : Fin 5) (msg : BgfMessage) (s : State) :
    acceptMessage slot msg (withPending q s) = withPending q (acceptMessage slot msg s) := by
  simp only [acceptMessage, apply_ite (withPending q)]
  rfl

theorem execBgfRecv_withPending (h : execBgfRecv s = .next t) :
    execBgfRecv (withPending q s) = .next (withPending q t) := by
  have hm : receivedMessage (withPending q s) = receivedMessage s := rfl
  have hp : (withPending q s).params = s.params := rfl
  have hl : (withPending q s).rxlen = s.rxlen := rfl
  cases h
  simp only [execBgfRecv, hm, hp, hl]
  split
  · rfl
  cases slotOf s.params (receivedMessage s).id with
  | none => rfl
  | some slot => exact congrArg _ (acceptMessage_withPending q slot _ s)

theorem writeRegister_withPending (r : Reg) (v : Byte) (s : State) :
    writeRegister r v (withPending q s) = withPending q (writeRegister r v s) := by
  cases r <;> rfl

/-- No instruction looks at the queue or changes it. -/
theorem exec_withPending (hw : WellFormed i) (h : exec i s = .next t) :
    exec i (withPending q s) = .next (withPending q t) := by
  cases i with
  | crcRx | crcTx => cases h; exact congrArg _ (crcOverBuffer_withPending q _ _ s)
  | muxDec => exact execMuxDec_withPending q h
  | comDec => exact execComDec_withPending q h
  | bgfSend operand => exact execBgfSend_withPending q h
  | bgfRecv => exact execBgfRecv_withPending q h
  | wr a v =>
    obtain ⟨h0, h3⟩ : a ≠ 0x00 ∧ a ≠ 0x03 := by simpa [WellFormed, wellFormed] using hw
    rw [exec_wr_eq hw h, exec_wr_register h0 h3, writeRegister_withPending]
  | _ => cases h; rfl

end

/-- The step that performs the first access of an issued script. -/
theorem step_hostIssue_cons {i : Instr} {s t : State} (hv : s.params.valid = true)
    (hw : WellFormed i) (h : exec i s = .next t) (script : List Instr) (rest : List HostInput) :
    step (withPending (hostIssue (i :: script) ++ rest) s) =
      .next (withPending (hostIssue script ++ rest) t) :=
  (step_access (s := withPending (hostIssue (i :: script) ++ rest) s) hv rfl
    (decodeAccess_encode hw)).trans (exec_withPending (s := s) _ hw h)

/-- Settles O11, by induction on the script: the first step performs the first instruction, which
neither reads the queue nor changes the parameters. -/
theorem stepsRunIssuedScript : Obligations.StepsRunIssuedScript := by
  intro script rest s hv hw
  induction script generalizing s with
  | nil => rfl
  | cons i script ih =>
    obtain ⟨hi, hscript⟩ := List.forall_mem_cons.1 hw
    obtain ⟨t, ht⟩ := exec_completes i s
    have hvt : t.params.valid = true := by rw [exec_params hi ht]; exact hv
    have hrun : Host.Core.run core (script.length + 1)
        (withPending (hostIssue (i :: script) ++ rest) s) =
          Host.Core.run core script.length (withPending (hostIssue script ++ rest) t) :=
      run_succ_next _ (step_hostIssue_cons hv hi ht script rest)
    have hscr : runScript (i :: script) (withPending rest s) =
        runScript script (withPending rest t) :=
      runScript_cons_next (exec_withPending rest hi ht) script
    exact hrun.trans ((ih t hvt hscript).trans hscr.symm)

/-! ### One byte written twice (20_memory R38) -/

/-- One instruction issued twice and performed by two steps. -/
theorem run_access_twice {s : State} {i : Instr} {b : BusAccess} {rest : List HostInput}
    (hv : s.params.valid = true) (hw : WellFormed i) (hb : encode i = b)
    (hp : s.pending = .access b :: .access b :: rest) :
    Host.Core.run core 2 s = runScript [i, i] { s with pending := rest } := by
  have hs : s = { s with pending := hostIssue [i, i] ++ rest } := by
    subst hb
    exact congrArg (withPending · s) hp
  exact (congrArg (Host.Core.run core 2) hs).trans
    (stepsRunIssuedScript [i, i] rest s hv (by simpa using hw))

theorem exec_wr_twice {a : Addr} {v : Byte} {s t : State} (h0 : a ≠ 0x00) (h3 : a ≠ 0x03)
    (h : exec (.wr a v) s = .next t) : exec (.wr a v) t = .next t := by
  cases (exec_wr_register h0 h3 v s).symm.trans h
  rw [exec_wr_register h0 h3, writeRegister_twice]

/-- BGF.SEND 5 names no slot, so from reset each of two counts in ERRCNT (10_state R27). -/
theorem exists_second_command_changes :
    ∃ (s t u : State) (c : Byte) (i : Instr), decodeAccess (.write 0x00 [c]) = .instr i ∧
      exec i s = .next t ∧ exec i t = .next u ∧ u ≠ t :=
  ⟨State.reset, _, _, 0x35, .bgfSend 5, rfl, rfl, rfl,
    fun h => absurd (congrArg State.errcnt h) (by decide)⟩

/-- CRC from reset is 0x07 after the byte 0x01, and 0x12 after a second one (40_crc R73). -/
theorem crc8Update_default_twice :
    crc8Update Params.default 0x00 0x01 = 0x07 ∧ crc8Update Params.default 0x07 0x01 = 0x12 := by
  decide

theorem exists_second_crcUpd_changes :
    ∃ (s t u : State) (b : Byte), exec (.crcUpd b) s = .next t ∧ exec (.crcUpd b) t = .next u ∧
      u ≠ t := by
  obtain ⟨hfirst, hsecond⟩ := crc8Update_default_twice
  have ht : (feedCrc 0x01 State.reset).crc = 0x07 := hfirst
  have hu : (feedCrc 0x01 (feedCrc 0x01 State.reset)).crc = 0x12 := by
    rw [feedCrc_crc, ht]; exact hsecond
  refine ⟨State.reset, _, _, 0x01, rfl, rfl, fun h => ?_⟩
  rw [h, ht] at hu
  exact absurd hu (by decide)

/-- Settles O24: reads by their meaning, register writes by `writeRegister_twice`, and the two write
ports as a script of two accesses. -/
theorem registerWritesAreIdempotent : Obligations.RegisterWritesAreIdempotent := by
  refine ⟨fun s a => exec_rd a s, fun s t a v h0 h3 => exec_wr_twice h0 h3,
    fun s c i rest hv hp hd => ?_, fun s b rest hv hp => ?_, exists_second_command_changes,
    exists_second_crcUpd_changes⟩
  · exact run_access_twice hv (decodeAccess_wellFormed hd) (encode_of_decodeAccess_cmd hd) hp
  · rw [run_access_twice (i := .crcUpd b) hv rfl rfl hp]
    rfl

end Sys2Proof.Machine

/-! SUPPORT. The encodings (30_encoding): commands and their codes, the pseudo-operations LOADRX and
CRC.BYTES, and the outbound MUX frame. -/

namespace Sys2Proof

/-! ### Instructions and accesses -/

/-- Settles O1: by the form of the instruction; BGF.SEND, the reserved codes and WR by their
operands. -/
theorem decodeOfEncodeGivesInstruction : Obligations.DecodeOfEncodeGivesInstruction :=
  fun _ => decodeAccess_encode

theorem encode_decodeWrite (a : Addr) (v : Byte) : encode (decodeWrite a v) = .write a [v] := by
  by_cases h0 : a = 0x00
  · subst h0; exact encode_decodeCommand v
  by_cases h3 : a = 0x03
  · subst h3; rfl
  · rw [decodeWrite_other h0 h3]; rfl

/-- Settles O2: an access that decodes is a 1-byte read or a 1-byte write. -/
theorem encodeOfDecodeGivesAccess : Obligations.EncodeOfDecodeGivesAccess := by
  refine fun b i h => ⟨decodeAccess_wellFormed h, ?_⟩
  rcases decodeAccess_cases h with ⟨a, rfl, rfl⟩ | ⟨a, v, rfl, rfl⟩
  · rfl
  · exact encode_decodeWrite a v

/-! ### Command bytes (30_encoding R53, R56, R57) -/

theorem decodeAccess_cmd_eq_reserved_iff (c : Byte) :
    decodeAccess (.write 0x00 [c]) = .instr (.reserved c) ↔ reservedCode c = true :=
  ⟨decodeAccess_wellFormed, fun h => congrArg Decoded.instr (decodeCommand_reserved c h)⟩

theorem reservedCode_iff (c : Byte) : reservedCode c = true ↔
    (0x04 ≤ c.toNat ∧ c.toNat ≤ 0x0F) ∨ (0x12 ≤ c.toNat ∧ c.toNat ≤ 0x1F) ∨
      (0x21 ≤ c.toNat ∧ c.toNat ≤ 0x2F) ∨ 0x39 ≤ c.toNat := by
  simp [reservedCode, BitVec.le_def, or_assoc]

theorem reservedCode_count :
    ((List.range 256).filter fun n => reservedCode (BitVec.ofNat 8 n)).length = 240 := by
  decide +kernel

/-- Settles O3: a byte decodes to the reserved code it is exactly when `reservedCode` says so. -/
theorem reservedCodesAreTheFourRanges : Obligations.ReservedCodesAreTheFourRanges := by
  refine ⟨fun c => (decodeAccess_cmd_eq_reserved_iff c).trans (reservedCode_iff c), ?_,
    fun c s _ => rfl⟩
  simp only [decodeAccess_cmd_eq_reserved_iff, Bool.decide_eq_true]
  exact reservedCode_count

/-- A byte whose five high bits are 00110 is 0x30 and its three low bits. -/
theorem eq_add_slot_of_div {c : Byte} (h : c.toNat / 8 = 0b00110) :
    c = 48#8 + (BitVec.ofNat 3 c.toNat).setWidth 8 := by
  apply BitVec.eq_of_toNat_eq
  simp only [BitVec.toNat_add, BitVec.toNat_setWidth, BitVec.toNat_ofNat]
  omega

end Sys2Proof

namespace Sys2Proof.Machine

/-- A slot value that names no slot: IdError, whatever the state (42_serial R91). -/
theorem exec_bgfSend_no_slot {operand : BitVec 3} (h : 5 ≤ operand.toNat) (s : State) :
    exec (.bgfSend operand) s =
      .next (raiseReport .idError 0 (produceNoFrame (countIdError s))) := by
  have hn := namedSlot_eq_none.2 h
  rcases execBgfSend_cases operand s with ⟨_, he⟩ | ⟨_, hs, _⟩
  · exact he
  · simp [hn] at hs

/-- Settles O4: the byte is the code of BGF.SEND with its low bits as slot, and 5, 6 and 7 name
none. -/
theorem slotFieldIsTheLowThreeBits : Obligations.SlotFieldIsTheLowThreeBits := by
  refine ⟨fun c h => ⟨BitVec.ofNat 3 c.toNat, ?_, BitVec.toNat_ofNat _ _⟩, fun slot s h =>
    ⟨_, exec_bgfSend_no_slot h s, rfl⟩⟩
  have hd : decodeCommand c = .bgfSend (BitVec.ofNat 3 c.toNat) :=
    (congrArg decodeCommand (eq_add_slot_of_div h)).trans (decodeCommand_bgfSend _)
  exact congrArg Decoded.instr hd

/-- Settles O5: the decoder evaluates on each word. -/
theorem writtenOutWordsDecode : Obligations.WrittenOutWordsDecode :=
  ⟨rfl, rfl, rfl, rfl, rfl, rfl, rfl, rfl, rfl, rfl⟩

/-! ### LOADRX and CRC.BYTES (30_encoding R66) -/

theorem runScript_append_next {xs : List Instr} {s t : State} (h : runScript xs s = .next t)
    (ys : List Instr) : runScript (xs ++ ys) s = runScript ys t := by
  induction xs generalizing s with
  | nil => cases h; rfl
  | cons i xs ih =>
    obtain ⟨u, hu⟩ := exec_completes i s
    rw [runScript_cons_next hu] at h
    rw [List.cons_append, runScript_cons_next hu, ih h]

theorem exec_wr_rxbuf {i : Nat} (hi : i < 16) (b : Byte) (s : State) :
    exec (.wr (BitVec.ofNat 8 (rxCell i)) b) s =
      .next { s with mem := s.mem.write (rxCell i) b } := by
  have hr : regAt (BitVec.ofNat 8 (rxCell i)) = .rxbuf i := regAt_rx hi
  rw [exec_wr_of_accessType_ne_w (by simp [hr, accessType]), hr]
  rfl

theorem runScript_loadRxFrom {bytes : List Byte} {i : Nat} (h : i + bytes.length ≤ 16)
    (s : State) : runScript (loadRxFrom i bytes) s =
      .next { s with mem := s.mem.writeBytes (rxCell i) bytes } := by
  induction bytes generalizing i s with
  | nil => rfl
  | cons b bytes ih =>
    rw [List.length_cons] at h
    exact (runScript_cons_next (exec_wr_rxbuf (by omega) b s) _).trans (ih (by omega) _)

/-- The state that LOADRX leaves. -/
def loadedRx (bytes : List Byte) (s : State) : State :=
  { s with mem := s.mem.writeBytes (rxCell 0) bytes, rxlen := BitVec.ofNat 8 bytes.length }

theorem runScript_loadRx {bytes : List Byte} (h : bytes.length ≤ 16) (s : State) :
    runScript (loadRx bytes) s = .next (loadedRx bytes s) := by
  rw [loadRx, runScript_append_next (runScript_loadRxFrom (by omega) s)]
  rfl

theorem rxlen_loadedRx {bytes : List Byte} (h : bytes.length ≤ 16) (s : State) :
    (loadedRx bytes s).rxlen.toNat = bytes.length := by
  rw [loadedRx, BitVec.toNat_ofNat, Nat.mod_eq_of_lt (by omega)]

/-- The loaded bytes read back from RXBUF. -/
theorem rxBytes_loadedRx (bytes : List Byte) (s : State) :
    rxBytes (loadedRx bytes s) bytes.length = bytes := by
  refine List.ext_getElem (by simp [rxBytes]) fun k _ hk => ?_
  have hread : rxByte (loadedRx bytes s) k = bytes.getD k 0 := by
    show Memory.read (s.mem.writeBytes (rxCell 0) bytes) (rxCell k) = _
    rw [memory_read_writeBytes, if_pos (by simp only [rxCell]; omega)]
    simp only [rxCell, Nat.add_sub_add_left, Nat.sub_zero]
  simp [rxBytes, hread, hk]

/-- CRC.RX after LOADRX computes over the loaded bytes. -/
theorem exec_crcRx_loadedRx {bytes : List Byte} (h : bytes.length ≤ 16) (s : State) :
    exec .crcRx (loadedRx bytes s) =
      .next (complete 0 (setCrc (crc8Compute s.params bytes) (loadedRx bytes s))) := by
  have hlen := rxlen_loadedRx h s
  show Host.Outcome.next (crcOverBuffer _ _ _) = _
  rcases crcOverBuffer_cases (rxBytes (loadedRx bytes s)) (loadedRx bytes s).rxlen.toNat
    (loadedRx bytes s) with ⟨hlong, _⟩ | ⟨_, he⟩
  · omega
  · rw [he, hlen, rxBytes_loadedRx]
    rfl

/-- CRC.BYTES folds its bytes into CRC and changes nothing else. -/
theorem runScript_crcBytes (bytes : List Byte) (s : State) :
    runScript (crcBytes bytes) s =
      .next (setCrc (bytes.foldl (crc8Update s.params) s.crc) s) := by
  induction bytes generalizing s with
  | nil => rfl
  | cons b bytes ih => exact ih (feedCrc b s)

/-- Settles O30: both scripts leave `crc8Compute` of the bytes in CRC. -/
theorem loadedBytesCrcEqualsFedBytes : Obligations.LoadedBytesCrcEqualsFedBytes := by
  intro s bytes h
  refine ⟨complete 0 (setCrc (crc8Compute s.params bytes) (loadedRx bytes s)), _, ?_,
    runScript_crcBytes bytes (complete 0 (setCrc s.params.crcInit s)), ?_, rfl⟩
  · rw [runScript_append_next (runScript_loadRx h s),
      runScript_cons_next (exec_crcRx_loadedRx h s), runScript_nil]
  · exact crc8Compute_eq s.params bytes

/-! ### The outbound MUX frame (30_encoding R61, R62) -/

/-- The state that MUX.ENC leaves. -/
def muxEncoded (s : State) : State := complete 0 (produceFrame (muxOutFrame s) s)

theorem exec_muxEnc (s : State) : exec .muxEnc s = .next (muxEncoded s) := rfl

theorem txAt_muxEncoded (s : State) {k : Nat} (h : k < 10) :
    txAt (muxEncoded s) k = (muxOutFrame s).getD k 0 :=
  (txAt_eq (by omega) _).trans ((txByte_produceFrame (muxOutFrame s) s k).trans (if_pos h))

theorem motorAny_eq (s : State) : motorAny s = decide (s.motor ≠ 0) := by
  simp [motorAny, bne, beq_eq_decide]

/-- The two bytes of a 16-bit value, the high one first, give it back (20_memory R39). -/
theorem be16_byteK (v : BitVec 16) : be16 (byteK 1 v) (byteK 0 v) = v.toNat := by
  rw [be16, byteK_toNat, byteK_toNat]
  omega

theorem rpmTenth_toNat (s : State) : (rpmTenth s).toNat = s.rpm.toNat / 10 := by
  rw [rpmTenth, BitVec.toNat_ofNat, Nat.mod_eq_of_lt (by omega)]

/-- The percentage fits one byte at the fuel levels of 10_state R31. -/
theorem ofNat_fuelPct_toNat {s : State} (h : s.fuel.toNat ≤ 40) :
    (BitVec.ofNat 8 (fuelPct s)).toNat = s.fuel.toNat * 100 / 40 := by
  rw [fuelPct, Config.fuelMax, BitVec.toNat_ofNat, Nat.mod_eq_of_lt (by omega)]

/-- A produced and reported frame shows in STATUS, TXLEN and the bytes it fills; every other
register reads as before. -/
theorem readRegister_complete_produceFrame {r : Reg} (hr : regIndexOk r = true)
    (hstatus : r ≠ .status) (htxlen : r ≠ .txlen) {bytes : List Byte}
    (htx : ∀ i < bytes.length, r ≠ .txbuf i) (info : Byte) (s : State) :
    readRegister (complete info (produceFrame bytes s)) r = readRegister s r := by
  cases r with
  | status => exact absurd rfl hstatus
  | txlen => exact absurd rfl htxlen
  | rxbuf i => exact rxByte_produceFrame bytes s (of_decide_eq_true hr)
  | txbuf i =>
    exact (txByte_produceFrame bytes s i).trans (if_neg fun hi => htx i hi rfl)
  | _ => rfl

/-- The addresses outside those of STATUS, TXLEN and TXBUF[0..9] hold other registers. -/
theorem regAt_of_not_mem_muxEnc {a : Addr} (ha : a ∉
    ([0x01, 0x05, 0x20, 0x21, 0x22, 0x23, 0x24, 0x25, 0x26, 0x27, 0x28, 0x29] : List Addr)) :
    regAt a ≠ .status ∧ regAt a ≠ .txlen ∧ ∀ i < 10, regAt a ≠ .txbuf i := by
  refine ⟨fun h => ?_, fun h => ?_, fun i hi h => ?_⟩
  · obtain rfl := regAt_injective (b := 0x01) h (by simp [h])
    exact ha (by decide)
  · obtain rfl := regAt_injective (b := 0x05) h (by simp [h])
    exact ha (by decide)
  · obtain rfl := regAt_injective (h.trans (regAt_tx (by omega)).symm) (by simp [h])
    exact ha (by interval_cases i <;> decide)

/-- Settles O41: every byte of the frame reads back from TXBUF, and each is the packed or derived
quantity of its position. -/
theorem muxEncPacksOutboundFrame : Obligations.MuxEncPacksOutboundFrame := by
  refine ⟨rfl, fun s => ⟨muxEncoded s, exec_muxEnc s, rfl, fun k hk => ?_, fun k hk => ?_,
    txAt_muxEncoded s (by omega), txAt_muxEncoded s (by omega), txAt_muxEncoded s (by omega),
    txAt_muxEncoded s (by omega), txAt_muxEncoded s (by omega), fun hfuel => ?_, ?_,
    fun a ha => ?_⟩⟩
  · rw [txAt_muxEncoded s (by omega), ← motorAny_eq]
    exact getLsbD_packFrom s.params.outMsbFirst _ _ _ _ _ _ _ _ hk
  · rw [txAt_muxEncoded s (by omega)]
    exact getLsbD_packFrom s.params.outMsbFirst _ _ _ _ _ _ _ _ hk
  · rw [txAt_muxEncoded s (by omega)]
    exact ofNat_fuelPct_toNat hfuel
  · rw [txAt_muxEncoded s (by omega), txAt_muxEncoded s (by omega)]
    exact (be16_byteK (rpmTenth s)).trans (rpmTenth_toNat s)
  · obtain ⟨hstatus, htxlen, htx⟩ := regAt_of_not_mem_muxEnc ha
    exact readRegister_complete_produceFrame (regIndexOk_regAt a) hstatus htxlen
      (bytes := muxOutFrame s) htx 0 s

end Sys2Proof.Machine

/-! SUPPORT. The CRC generator (40_crc): the shift step and its mirror image, detection and residue,
the fold law, and the CRC commands. -/

namespace Sys2Proof.Machine

/-! ### The shift step (40_crc R67) -/

section
variable {p : Params}

theorem crcShift_of_not_reflect (h : p.crcReflect = false) (c : Byte) :
    crcShift p c = (c <<< 1) ^^^ (if c.getLsbD 7 then p.crcPoly else 0) := by
  rw [crcShift, if_pos h]
  split
  · rfl
  · exact BitVec.xor_zero.symm

theorem crcShifts_eq_iterate (p : Params) (n : Nat) : crcShifts p n = (crcShift p)^[n] := by
  induction n with
  | zero => rfl
  | succ n ih => funext c; exact congrFun ih (crcShift p c)

theorem getLsbD_rev8 (v : Byte) {i : Nat} (hi : i < 8) :
    (rev8 v).getLsbD i = v.getLsbD (7 - i) := by
  revert v; interval_cases i <;> decide

@[simp] theorem rev8_rev8 (v : Byte) : rev8 (rev8 v) = v := by
  refine BitVec.eq_of_getLsbD_eq fun i hi => ?_
  rw [getLsbD_rev8 _ hi, getLsbD_rev8 _ (by omega), show 7 - (7 - i) = i by omega]

theorem rev8_xor (v w : Byte) : rev8 (v ^^^ w) = rev8 v ^^^ rev8 w := by
  refine BitVec.eq_of_getLsbD_eq fun i hi => ?_
  rw [BitVec.getLsbD_xor, getLsbD_rev8 _ hi, getLsbD_rev8 _ hi, getLsbD_rev8 _ hi,
    BitVec.getLsbD_xor]

theorem rev8_eq_zero_iff : ∀ v : Byte, rev8 v = 0 ↔ v = 0 := by decide

theorem rev8_shiftLeft_one : ∀ v : Byte, rev8 (v <<< 1) = rev8 v >>> 1 := by decide

/-- The reflected shift step is the unreflected one between two bit reversals. -/
theorem crcShift_of_reflect (h : p.crcReflect = true) (c : Byte) :
    crcShift p c = rev8 (crcShift { p with crcReflect := false } (rev8 c)) := by
  rw [crcShift_of_not_reflect (p := { p with crcReflect := false }) rfl, rev8_xor,
    rev8_shiftLeft_one, rev8_rev8, getLsbD_rev8 c (by omega), crcShift, if_neg (by simp [h])]
  split
  · rfl
  · exact BitVec.xor_zero.symm

theorem crcShifts_of_reflect (h : p.crcReflect = true) (n : Nat) (c : Byte) :
    crcShifts p n c = rev8 (crcShifts { p with crcReflect := false } n (rev8 c)) := by
  induction n generalizing c with
  | zero => exact (rev8_rev8 c).symm
  | succ n ih => rw [crcShifts, ih, crcShift_of_reflect h, rev8_rev8, crcShifts]

/-- Settles O32: the shift step's mirror law, eight times. -/
theorem reflectedUpdateMirrorsUnreflected : Obligations.ReflectedUpdateMirrorsUnreflected := by
  intro p c b
  rw [crc8Update_eq, crcShifts_of_reflect rfl, rev8_xor, crc8Update_eq]

/-! ### The update as a checksum and as a remainder (40_crc R67, R70) -/

theorem crcShift_of_poly_one (hpoly : p.crcPoly = 0x01) (h : p.crcReflect = false) (c : Byte) :
    crcShift p c = c.rotateLeft 1 := by
  rw [crcShift_of_not_reflect h, hpoly]
  revert c; decide

theorem rotateLeft_one_iterate_eight : ∀ c : Byte, (fun x : Byte => x.rotateLeft 1)^[8] c = c := by
  decide

/-- Settles O33: the shift step rotates the byte by one bit, and eight of them bring it back. -/
theorem polyOneIsXorChecksum : Obligations.PolyOneIsXorChecksum := by
  intro p c b hpoly h
  have hrot : crcShift p = fun x => x.rotateLeft 1 := funext (crcShift_of_poly_one hpoly h)
  rw [crc8Update_eq, crcShifts_eq_iterate, hrot, rotateLeft_one_iterate_eight]

end

/-- The generator x^8 + CRC_POLY, in 16 bits. -/
def generator (poly : Byte) : BitVec 16 := 0x100#16 ||| poly.setWidth 16

/-- One term of `timesGenerator`: the generator shifted to bit `k`, when the quotient has it. -/
def addGenerator (poly q : Byte) (acc : BitVec 16) (k : Nat) : BitVec 16 :=
  if q.getLsbD k then acc ^^^ generator poly <<< k else acc

theorem timesGenerator_eq_foldl (poly q : Byte) :
    timesGenerator poly q = (List.range 8).foldl (addGenerator poly q) 0 := rfl

theorem addGenerator_eq_xor (poly q : Byte) (acc : BitVec 16) (k : Nat) :
    addGenerator poly q acc k = acc ^^^ (if q.getLsbD k then generator poly <<< k else 0) := by
  unfold addGenerator
  split
  · rfl
  · exact BitVec.xor_zero.symm

theorem ite_xor (a b : Bool) (g : BitVec 16) :
    (if a ^^ b then g else 0) = (if a then g else 0) ^^^ (if b then g else 0) := by
  cases a <;> cases b <;> simp

theorem foldl_addGenerator_xor (poly q r : Byte) (ks : List Nat) (x y : BitVec 16) :
    ks.foldl (addGenerator poly (q ^^^ r)) (x ^^^ y) =
      ks.foldl (addGenerator poly q) x ^^^ ks.foldl (addGenerator poly r) y := by
  induction ks generalizing x y with
  | nil => rfl
  | cons k ks ih =>
    have hk : addGenerator poly (q ^^^ r) (x ^^^ y) k =
        addGenerator poly q x k ^^^ addGenerator poly r y k := by
      rw [addGenerator_eq_xor, addGenerator_eq_xor, addGenerator_eq_xor, BitVec.getLsbD_xor,
        ite_xor]
      ac_rfl
    simp only [List.foldl_cons, hk, ih]

/-- The carry-less product is linear in the quotient. -/
theorem timesGenerator_xor (poly q r : Byte) :
    timesGenerator poly (q ^^^ r) = timesGenerator poly q ^^^ timesGenerator poly r :=
  foldl_addGenerator_xor poly q r (List.range 8) 0 0

theorem timesGenerator_zero (poly : Byte) : timesGenerator poly 0#8 = 0#16 := by
  simp [timesGenerator_eq_foldl, List.range_succ, addGenerator]

theorem timesGenerator_one_shiftLeft (poly : Byte) {n : Nat} (hn : n < 8) :
    timesGenerator poly (1 <<< n) = generator poly <<< n := by
  rw [timesGenerator_eq_foldl]
  interval_cases n <;> simp [List.range_succ, addGenerator]

theorem generator_eq_xor : ∀ poly : Byte, generator poly = 0x100#16 ^^^ poly.setWidth 16 := by
  unfold generator; decide

/-- The bit that leaves the byte stands at x^8. -/
theorem setWidth_shiftLeft_one : ∀ x : Byte, x.setWidth 16 <<< 1 =
    (if x.getLsbD 7 then 0x100#16 else 0) ^^^ (x <<< 1).setWidth 16 := by
  decide

/-- One step of the division: the byte times x is its shift step, plus the generator when the byte
has its top bit. -/
theorem setWidth_shiftLeft_one_eq_crcShift {p : Params} (h : p.crcReflect = false) (x : Byte) :
    x.setWidth 16 <<< 1 =
      (if x.getLsbD 7 then generator p.crcPoly else 0) ^^^ (crcShift p x).setWidth 16 := by
  rw [setWidth_shiftLeft_one, crcShift_of_not_reflect h, BitVec.setWidth_xor]
  split
  · rw [generator_eq_xor]
    ac_nf
    simp
  · simp

/-- Long division: `n` shift steps leave the remainder of the byte times x^n. -/
theorem exists_quotient_crcShifts {p : Params} (h : p.crcReflect = false) {n : Nat} (hn : n ≤ 8)
    (x : Byte) : ∃ q : Byte, x.setWidth 16 <<< n =
      timesGenerator p.crcPoly q ^^^ (crcShifts p n x).setWidth 16 := by
  induction n generalizing x with
  | zero => exact ⟨0, by simp [timesGenerator_zero, crcShifts]⟩
  | succ n ih =>
    obtain ⟨q, hq⟩ := ih (by omega) (crcShift p x)
    have hterm : ∃ r : Byte, timesGenerator p.crcPoly r =
        (if x.getLsbD 7 then generator p.crcPoly else 0) <<< n := by
      split
      · exact ⟨1 <<< n, timesGenerator_one_shiftLeft p.crcPoly (by omega)⟩
      · exact ⟨0, (timesGenerator_zero p.crcPoly).trans (BitVec.zero_shiftLeft n).symm⟩
    obtain ⟨r, hr⟩ := hterm
    refine ⟨r ^^^ q, ?_⟩
    rw [Nat.add_comm, BitVec.shiftLeft_add, setWidth_shiftLeft_one_eq_crcShift h,
      BitVec.shiftLeft_xor_distrib, hq, timesGenerator_xor, hr, BitVec.xor_assoc, Nat.add_comm,
      crcShifts]

/-- Settles O31: eight steps of the long division. -/
theorem updateIsPolynomialRemainder : Obligations.UpdateIsPolynomialRemainder :=
  fun _ c b h => exists_quotient_crcShifts h le_rfl (c ^^^ b)

/-! ### Detection and residue (40_crc R70, R71) -/

section
variable {p : Params}

theorem eq_zero_of_shiftLeft_one :
    ∀ x : Byte, x.getLsbD 7 = false → x <<< 1 = 0 → x = 0 := by
  decide

/-- The bit shifted out comes back at the other end where the polynomial has its constant term. -/
theorem getLsbD_crcShift_zero (h : p.crcReflect = false) (x : Byte) :
    (crcShift p x).getLsbD 0 = (x.getLsbD 7 && p.crcPoly.getLsbD 0) := by
  rw [crcShift_of_not_reflect h]
  split <;> simp_all

theorem eq_zero_of_crcShift_of_not_reflect (h : p.crcReflect = false)
    (hp : p.crcPoly.getLsbD 0 = true) {x : Byte} (hx : crcShift p x = 0) : x = 0 := by
  have htop : x.getLsbD 7 = false := by
    have hbit := getLsbD_crcShift_zero h x
    rw [hx, hp, Bool.and_true] at hbit
    exact hbit.symm
  rw [crcShift_of_not_reflect h, htop, if_neg Bool.false_ne_true] at hx
  exact eq_zero_of_shiftLeft_one x htop (BitVec.xor_zero.symm.trans hx)

/-- With a constant term the shift step loses no byte. -/
theorem crcShift_eq_zero_iff (hp : p.crcPoly.getLsbD 0 = true) (x : Byte) :
    crcShift p x = 0 ↔ x = 0 := by
  refine ⟨fun hx => ?_, fun hx => hx ▸ crcShift_zero p⟩
  cases h : p.crcReflect with
  | false => exact eq_zero_of_crcShift_of_not_reflect h hp hx
  | true =>
    rw [crcShift_of_reflect h, rev8_eq_zero_iff] at hx
    exact (rev8_eq_zero_iff x).1
      (eq_zero_of_crcShift_of_not_reflect (p := { p with crcReflect := false }) rfl hp hx)

theorem crcShifts_eq_zero_iff (hp : p.crcPoly.getLsbD 0 = true) (n : Nat) (x : Byte) :
    crcShifts p n x = 0 ↔ x = 0 := by
  induction n generalizing x with
  | zero => rfl
  | succ n ih => rw [crcShifts, ih, crcShift_eq_zero_iff hp]

/-- The byte that the unreflected shift step takes to 0 when CRC_POLY has no constant term: the top
bit, which becomes CRC_POLY, beside CRC_POLY shifted down. -/
def lostByte (poly : Byte) : Byte := 0x80 ||| poly >>> 1

theorem lostByte_ne_zero : ∀ poly : Byte, lostByte poly ≠ 0 := by unfold lostByte; decide

theorem getLsbD_lostByte : ∀ poly : Byte, (lostByte poly).getLsbD 7 = true := by
  unfold lostByte; decide

theorem lostByte_shiftLeft_one :
    ∀ poly : Byte, poly.getLsbD 0 = false → lostByte poly <<< 1 = poly := by
  unfold lostByte; decide

theorem crcShift_lostByte (h : p.crcReflect = false) (hp : p.crcPoly.getLsbD 0 = false) :
    crcShift p (lostByte p.crcPoly) = 0 := by
  rw [crcShift_of_not_reflect h, lostByte_shiftLeft_one _ hp, if_pos (getLsbD_lostByte _)]
  exact BitVec.xor_self

theorem exists_crcShift_eq_zero (hp : p.crcPoly.getLsbD 0 = false) :
    ∃ e : Byte, e ≠ 0 ∧ crcShift p e = 0 := by
  cases h : p.crcReflect with
  | false => exact ⟨_, lostByte_ne_zero p.crcPoly, crcShift_lostByte h hp⟩
  | true =>
    refine ⟨rev8 (lostByte p.crcPoly),
      fun he => lostByte_ne_zero p.crcPoly ((rev8_eq_zero_iff _).1 he), ?_⟩
    rw [crcShift_of_reflect h, rev8_rev8, rev8_eq_zero_iff]
    exact crcShift_lostByte (p := { p with crcReflect := false }) rfl hp

theorem crc8Update_eq_zero_iff (hp : p.crcPoly.getLsbD 0 = true) (c b : Byte) :
    crc8Update p c b = 0 ↔ b = c := by
  rw [crc8Update_eq, crcShifts_eq_zero_iff hp, eq_comm (a := b)]
  exact BitVec.xor_eq_zero_iff

/-- The update by a byte equal to CRC gives 0, whatever the polynomial (40_crc R73). -/
theorem crc8Update_self (p : Params) (c : Byte) : crc8Update p c c = 0 := by
  rw [crc8Update_eq, BitVec.xor_self]
  exact crcShifts_zero p 8

/-- The update is linear in CRC and the byte together (40_crc R72). -/
theorem crc8Update_xor (p : Params) (c d b e : Byte) :
    crc8Update p (c ^^^ d) (b ^^^ e) = crc8Update p c b ^^^ crc8Update p d e := by
  rw [crc8Update_eq, crc8Update_eq, crc8Update_eq, ← crcShifts_xor]
  congr 1
  ac_rfl

theorem crc8Update_eq_iff (hp : p.crcPoly.getLsbD 0 = true) (c d b e : Byte) :
    crc8Update p c b = crc8Update p d e ↔ c ^^^ d = b ^^^ e := by
  rw [← BitVec.xor_eq_zero_iff, ← crc8Update_xor, eq_comm (a := c ^^^ d)]
  exact crc8Update_eq_zero_iff hp _ _

theorem foldl_crc8Update_injective (hp : p.crcPoly.getLsbD 0 = true) {bytes : List Byte}
    {c d : Byte} (h : bytes.foldl (crc8Update p) c = bytes.foldl (crc8Update p) d) : c = d := by
  induction bytes generalizing c d with
  | nil => exact h
  | cons b bytes ih =>
    have hcd := (crc8Update_eq_iff hp c d b b).1 (ih h)
    rwa [BitVec.xor_self, BitVec.xor_eq_zero_iff] at hcd

/-- A byte replaced by another one changes the fold, wherever it stands. -/
theorem foldl_crc8Update_set_ne (hp : p.crcPoly.getLsbD 0 = true) {bytes : List Byte} {k : Nat}
    (hk : k < bytes.length) {v : Byte} (hv : v ≠ bytes[k]) (c : Byte) :
    (bytes.set k v).foldl (crc8Update p) c ≠ bytes.foldl (crc8Update p) c := by
  induction bytes generalizing k c with
  | nil => cases hk
  | cons b bytes ih =>
    cases k with
    | zero =>
      intro h
      have hvb := (crc8Update_eq_iff hp c c v b).1 (foldl_crc8Update_injective hp h)
      exact hv (BitVec.xor_eq_zero_iff.1 (hvb.symm.trans BitVec.xor_self))
    | succ k => exact ih (Nat.lt_of_succ_lt_succ hk) hv _

theorem crc8Compute_set_ne (hp : p.crcPoly.getLsbD 0 = true) {bytes : List Byte} {k : Nat}
    (hk : k < bytes.length) {v : Byte} (hv : v ≠ bytes[k]) :
    crc8Compute p (bytes.set k v) ≠ crc8Compute p bytes := by
  rw [crc8Compute_eq, crc8Compute_eq]
  exact foldl_crc8Update_set_ne hp hk hv p.crcInit

theorem crc8Compute_append (p : Params) (xs ys : List Byte) :
    crc8Compute p (xs ++ ys) = ys.foldl (crc8Update p) (crc8Compute p xs) := by
  rw [crc8Compute_eq, crc8Compute_eq, List.foldl_append]

/-- The residue: a sequence followed by one byte has CRC 0 exactly when the byte is its CRC. -/
theorem crc8Compute_concat_eq_zero_iff (hp : p.crcPoly.getLsbD 0 = true) (bytes : List Byte)
    (b : Byte) : crc8Compute p (bytes ++ [b]) = 0 ↔ crc8Compute p bytes = b := by
  rw [crc8Compute_append, eq_comm (b := b)]
  exact crc8Update_eq_zero_iff hp _ _

theorem rxShown_succ (s : State) (n : Nat) : rxShown s (n + 1) = rxShown s n ++ [rxAt s n] := by
  rw [rxShown, List.range_succ, List.map_append]
  rfl

theorem crc8Compute_rxShown_eq_zero_iff (hp : p.crcPoly.getLsbD 0 = true) (s : State) :
    crc8Compute p (rxShown s 15) = 0 ↔ crc8Compute p (rxShown s 14) = rxAt s 14 := by
  rw [rxShown_succ, crc8Compute_concat_eq_zero_iff hp]

theorem validFrame_iff (hp : p.crcPoly.getLsbD 0 = true) (frame : Vector Byte 15) :
    validFrame p frame ↔ crc8Compute p frame.toList = 0 := by
  have hsplit : frame.toList = frame.toList.take 14 ++ [frame[14]] := by
    refine List.ext_getElem (by simp) fun i hi _ => ?_
    rw [Vector.length_toList] at hi
    obtain hlast | rfl : i < 14 ∨ i = 14 := by omega
    · simp [hlast]
    · simp
  rw [hsplit, crc8Compute_concat_eq_zero_iff hp]
  rfl

end

/-- Settles O36: the update vanishes only on equal bytes, and the last byte of a sequence decides. -/
theorem residueOfValidFrameIsZero : Obligations.ResidueOfValidFrameIsZero := by
  intro p hp
  exact ⟨crc8Update_eq_zero_iff hp, fun bytes => (crc8Compute_concat_eq_zero_iff hp bytes _).2 rfl,
    fun s _ => crc8Compute_rxShown_eq_zero_iff hp s⟩

/-- Thirteen zero bytes, a last data byte, and a CRC byte. -/
def frameEnding (b c : Byte) : Vector Byte 15 := #v[0, 0, 0, 0, 0, 0, 0, 0, 0, 0, 0, 0, 0, b, c]

theorem validFrame_frameEnding (p : Params) (b c : Byte) :
    validFrame p (frameEnding b c) ↔ crc8Compute p (List.replicate 13 0 ++ [b]) = c := Iff.rfl

/-- A corruption that the shift steps take to 0 goes unnoticed in the last byte. -/
theorem crc8Compute_concat_of_crcShift {p : Params} {e : Byte} (he : crcShift p e = 0)
    (bytes : List Byte) (b : Byte) :
    crc8Compute p (bytes ++ [b ^^^ e]) = crc8Compute p (bytes ++ [b]) := by
  have hlost : crc8Update p 0 e = 0 := by
    show crcShifts p 7 (crcShift p (0#8 ^^^ e)) = 0
    rw [BitVec.zero_xor, he, crcShifts_zero]
  have hsum := crc8Update_xor p (crc8Compute p bytes) 0 b e
  rw [hlost] at hsum
  rw [crc8Compute_append, crc8Compute_append]
  simpa using hsum

/-- Settles O34: with a constant term any replaced byte changes the residue of the whole frame;
without one, a byte that shifts to 0 corrupts a frame unnoticed. -/
theorem singleByteCorruptionDetectedIffOddPoly :
    Obligations.SingleByteCorruptionDetectedIffOddPoly := by
  refine ⟨fun s hp => (badParameterSetsAreRefused s).2 (.inl hp), fun p => ⟨fun h => ?_, ?_⟩⟩
  · by_contra hp
    obtain ⟨e, hne, he⟩ := exists_crcShift_eq_zero (Bool.eq_false_iff.2 hp)
    refine h (frameEnding 0 (crc8Compute p (List.replicate 13 0 ++ [0]))) 13 e
      ((validFrame_frameEnding p _ _).2 rfl) hne ?_
    exact (validFrame_frameEnding p (0 ^^^ e) _).2 (crc8Compute_concat_of_crcShift he _ _)
  · intro hp frame k e hframe he
    rw [validFrame_iff hp] at hframe ⊢
    rw [← hframe, Vector.toList_set]
    refine crc8Compute_set_ne hp (by simp) fun hv => he ?_
    simpa using hv

/-! ### The fold and its linearity (40_crc R69, R72) -/

/-- Settles O29: `foldl` over a concatenation, and the script as one run of CRC.BYTES after
CRC.INIT. -/
theorem foldLawHolds : Obligations.FoldLawHolds := by
  refine fun p xs ys => ⟨crc8Compute_eq p xs, crc8Compute_append p xs ys, fun s hs => ?_⟩
  subst hs
  have hcat : crcBytes xs ++ crcBytes ys = crcBytes (xs ++ ys) := List.map_append.symm
  rw [hcat, runScript_cons_next (t := complete 0 (setCrc s.params.crcInit s)) rfl,
    runScript_crcBytes, crc8Compute_eq]
  rfl

theorem foldl_crc8Update_xor (p : Params) {xs ys : List Byte} (h : xs.length = ys.length)
    (c d : Byte) :
    (List.zipWith (· ^^^ ·) xs ys).foldl (crc8Update p) (c ^^^ d) =
      xs.foldl (crc8Update p) c ^^^ ys.foldl (crc8Update p) d := by
  induction xs generalizing ys c d with
  | nil => cases ys with
    | nil => rfl
    | cons y ys => cases h
  | cons x xs ih => cases ys with
    | nil => cases h
    | cons y ys =>
      simp only [List.zipWith_cons_cons, List.foldl_cons, crc8Update_xor]
      exact ih (Nat.succ.inj h) _ _

theorem foldl_crc8Update_zeros (p : Params) (n : Nat) :
    (List.replicate n (0 : Byte)).foldl (crc8Update p) 0 = 0 := by
  induction n with
  | zero => rfl
  | succ n ih => rw [List.replicate_succ, List.foldl_cons, crc8Update_self, ih]

/-- The sum of two CRCs of equal length is the CRC of the sum, from an accumulator of 0. -/
theorem crc8Compute_xor (p : Params) {xs ys : List Byte} (h : xs.length = ys.length) :
    crc8Compute p xs ^^^ crc8Compute p ys =
      (List.zipWith (· ^^^ ·) xs ys).foldl (crc8Update p) 0 := by
  rw [crc8Compute_eq, crc8Compute_eq, ← foldl_crc8Update_xor p h, BitVec.xor_self]
  rfl

theorem zipWith_xor_zeros {xs : List Byte} {n : Nat} (h : xs.length = n) :
    List.zipWith (· ^^^ ·) xs (List.replicate n 0) = xs := by
  refine List.ext_getElem (by simp [h]) fun i _ _ => ?_
  rw [List.getElem_zipWith, List.getElem_replicate]
  exact BitVec.xor_zero

/-- Settles O37: both sides are the fold of the sum from 0. -/
theorem crcIsAffine : Obligations.CrcIsAffine := by
  refine fun p xs ys h => ⟨?_, fun h0 => ?_⟩
  · have hlen : (List.zipWith (· ^^^ ·) xs ys).length = xs.length := by simp [h]
    rw [crc8Compute_xor p h, crc8Compute_xor p (by simp [h]), zipWith_xor_zeros hlen]
  · rw [crc8Compute_eq, h0]
    exact foldl_crc8Update_zeros p xs.length

/-! ### The CRC commands (40_crc R73 to R76) -/

/-- Settles O25: CRC.UPD is the update, which gives 0 on equal bytes. -/
theorem crcUpdUpdatesCrcAlone : Obligations.CrcUpdUpdatesCrcAlone := by
  refine ⟨fun s b => ⟨rfl, rfl⟩, fun s => ?_, fun s hp hc => ?_⟩
  · exact congrArg (fun v => Host.Outcome.next (setCrc v s)) (crc8Update_self s.params s.crc)
  · obtain ⟨hfirst, _⟩ := crc8Update_default_twice
    have hv : crc8Update s.params s.crc 0x01 = 0x07 := by rw [hp, hc]; exact hfirst
    exact congrArg (fun v => Host.Outcome.next (setCrc v s)) hv

/-- Settles O26: CRC.INIT stores one value, whatever CRC held. -/
theorem crcInitLoadsInitialValue : Obligations.CrcInitLoadsInitialValue :=
  ⟨rfl, fun _ => ⟨rfl, rfl⟩⟩

section
variable {bytes : Nat → List Byte} {n : Nat}

theorem crcOverBuffer_of_le (h : n ≤ 16) (s : State) : crcOverBuffer bytes n s =
    complete 0 (setCrc (crc8Compute s.params (bytes n)) s) := by
  rcases crcOverBuffer_cases bytes n s with ⟨hlong, _⟩ | ⟨_, he⟩
  · omega
  · exact he

theorem crcOverBuffer_of_lt (h : 16 < n) (s : State) :
    crcOverBuffer bytes n s = raiseReport .lenError 0 s := by
  rcases crcOverBuffer_cases bytes n s with ⟨_, he⟩ | ⟨hshort, _⟩
  · exact he
  · omega

end

theorem exec_crcRx (s : State) :
    exec .crcRx s = .next (crcOverBuffer (rxBytes s) s.rxlen.toNat s) := rfl

theorem exec_crcTx (s : State) :
    exec .crcTx s = .next (crcOverBuffer (txBytes s) s.txlen.toNat s) := rfl

theorem exec_crcRx_of_le {s : State} (h : s.rxlen.toNat ≤ 16) : exec .crcRx s =
    .next (complete 0 (setCrc (crc8Compute s.params (rxShown s s.rxlen.toNat)) s)) := by
  rw [exec_crcRx, crcOverBuffer_of_le h, rxShown_eq h]

theorem exec_crcTx_of_le {s : State} (h : s.txlen.toNat ≤ 16) : exec .crcTx s =
    .next (complete 0 (setCrc (crc8Compute s.params (txShown s s.txlen.toNat)) s)) := by
  rw [exec_crcTx, crcOverBuffer_of_le h, txShown_eq h]

/-- Settles O27: the fold over the shown bytes; a valid frame has residue 0, and no byte leaves
CRC_INIT. -/
theorem crcRxFoldsReceiveBuffer : Obligations.CrcRxFoldsReceiveBuffer := by
  refine ⟨rfl, fun s => ⟨fun h => ?_, fun hp hlen hcrc => ?_, fun hlen => ?_, fun h => ?_⟩⟩
  · rw [exec_crcRx_of_le h, crc8Compute_eq]
    rfl
  · have hres := (crc8Compute_rxShown_eq_zero_iff hp s).2 hcrc
    have hn : s.rxlen.toNat = 15 := congrArg BitVec.toNat hlen
    rw [exec_crcRx_of_le (by omega), hn, hres]
    rfl
  · have hn : s.rxlen.toNat = 0 := congrArg BitVec.toNat hlen
    rw [exec_crcRx_of_le (by omega), hn, crc8Compute_eq]
    rfl
  · rw [exec_crcRx, crcOverBuffer_of_lt h]
    rfl

/-- Settles O28: as for CRC.RX; the invariant admits only the lengths 0, 2 and 10. -/
theorem crcTxFoldsTransmitBuffer : Obligations.CrcTxFoldsTransmitBuffer := by
  refine ⟨rfl, fun s h => ?_, fun s h => ?_, fun s hi => ?_⟩
  · rw [exec_crcTx_of_le h, crc8Compute_eq]
    rfl
  · rw [exec_crcTx, crcOverBuffer_of_lt h]
    rfl
  · rcases hi.txlen with h | h | h <;> rw [h] <;> decide

/-! ### A corrupted frame on the machine (40_crc R70, 41_mux R81) -/

section
variable {s : State} {k : Nat} {v : Byte}

/-- The state after a host write to RXBUF[k]. -/
def rxOverwritten (k : Nat) (v : Byte) (s : State) : State := writeRegister (.rxbuf k) v s

theorem exec_wr_rxOverwritten (hk : k < 16) (v : Byte) (s : State) :
    exec (.wr (BitVec.ofNat 8 (0x10 + k)) v) s = .next (rxOverwritten k v s) :=
  exec_wr_rxbuf hk v s

theorem memRead_rxOverwritten (hk : k < 16) (v : Byte) (s : State) (a : Addr) :
    memRead (rxOverwritten k v s) a =
      if a = BitVec.ofNat 8 (0x10 + k) then v else memRead s a := by
  have hr := regAt_rx hk
  rw [rxOverwritten, ← hr]
  exact memRead_writeRegister (by rw [hr]; rfl) v s a

theorem rxByte_rxOverwritten (k : Nat) (v : Byte) (s : State) (i : Nat) :
    rxByte (rxOverwritten k v s) i = if i = k then v else rxByte s i := by
  show (s.mem.write (rxCell k) v).read (rxCell i) = _
  rw [memory_read_write]
  simp only [rxCell, Nat.add_left_cancel_iff]
  rfl

theorem rxBytes_rxOverwritten (k : Nat) (v : Byte) (s : State) (n : Nat) :
    rxBytes (rxOverwritten k v s) n = (rxBytes s n).set k v := by
  refine List.ext_getElem (by simp [rxBytes]) fun i _ _ => ?_
  simp only [rxBytes, List.getElem_map, List.getElem_range, List.getElem_set,
    rxByte_rxOverwritten, eq_comm (a := i)]

/-- The host cannot turn a valid frame into another valid one by writing a single byte. -/
theorem muxCrcMatches_rxOverwritten (hp : s.params.crcPoly.getLsbD 0 = true)
    (hcrc : crc8Compute s.params (rxShown s 14) = rxAt s 14) (hk : k < 15) (hv : v ≠ rxAt s k) :
    muxCrcMatches (rxOverwritten k v s) = false := by
  rw [rxAt_eq (by omega)] at hv
  have hlen : (rxBytes s 15).length = 15 := by simp [rxBytes]
  have hne : crc8Compute s.params ((rxBytes s 15).set k v) ≠ crc8Compute s.params (rxBytes s 15) :=
    crc8Compute_set_ne hp (by omega) (by simpa [rxBytes] using hv)
  rw [← rxBytes_rxOverwritten, ← rxShown_eq (by omega), ← rxShown_eq (by omega),
    (crc8Compute_rxShown_eq_zero_iff hp s).2 hcrc] at hne
  refine Bool.eq_false_iff.2 fun hm => hne ((crc8Compute_rxShown_eq_zero_iff hp _).2 ?_)
  rw [rxShown_eq (by omega), rxAt_eq (by omega)]
  exact beq_iff_eq.1 hm

theorem exec_muxDec_crcError (hlen : s.rxlen.toNat = 15) (hcrc : muxCrcMatches s = false) :
    exec .muxDec s = .next
      (raiseReport .crcError (seqWarning (rxByte s 0) s.expframe) (advanceExpframe s)) := by
  rcases execMuxDec_cases s with ⟨hn, _⟩ | ⟨_, hn, _⟩ | ⟨_, _, he⟩
  · exact absurd hlen hn
  · cases hcrc.symm.trans hn
  · exact he

/-- A report after the sequence check shows in STATUS and EXPFRAME only. -/
theorem memRead_raiseReport_advanceExpframe {a : Addr} (h1 : a ≠ 0x01) (h6 : a ≠ 0x06) (e : Report)
    (w : Byte) (s : State) : memRead (raiseReport e w (advanceExpframe s)) a = memRead s a := by
  have hstatus : regAt a ≠ .status := fun h => h1 ((regAt_eq_iff (b := 0x01) (by decide)).1 h)
  have hexp : regAt a ≠ .expframe := fun h => h6 ((regAt_eq_iff (b := 0x06) (by decide)).1 h)
  unfold memRead
  cases hr : regAt a with
  | status => exact absurd hr hstatus
  | expframe => exact absurd hr hexp
  | _ => rfl

end

/-- Settles O35: the write leaves a frame whose CRC cannot match, so MUX.DEC reports CrcError. -/
theorem corruptedFrameIsRejected : Obligations.CorruptedFrameIsRejected := by
  intro s k v hp hlen hcrc hk hv
  have hn : (rxOverwritten k v s).rxlen.toNat = 15 := congrArg BitVec.toNat hlen
  have hdec := exec_muxDec_crcError hn (muxCrcMatches_rxOverwritten hp hcrc hk hv)
  have hread := memRead_rxOverwritten (k := k) (by omega) v s
  have h1 : BitVec.ofNat 8 (0x10 + k) ≠ 0x01 := by bv_omega
  have h6 : BitVec.ofNat 8 (0x10 + k) ≠ 0x06 := by bv_omega
  refine ⟨_, (runScript_cons_next (exec_wr_rxOverwritten (by omega) v s) _).trans
    (runScript_cons_next hdec []), ?_, nextFrame_eq s.expframe, rfl, ?_, fun a ha => ?_⟩
  · rcases seqWarning_cases (rxByte (rxOverwritten k v s) 0) s.expframe with h | h
    · exact .inl (congrArg (· ||| statusCrcErr) h)
    · exact .inr (congrArg (· ||| statusCrcErr) h)
  · rw [rxAt, memRead_raiseReport_advanceExpframe h1 h6, hread, if_pos rfl]
  · simp only [List.mem_cons, List.not_mem_nil, or_false, not_or] at ha
    obtain ⟨h1, h6, hother⟩ := ha
    rw [memRead_raiseReport_advanceExpframe h1 h6, hread, if_neg hother]

end Sys2Proof.Machine

/-! SUPPORT. The MUX codec (41_mux): the rejected lengths, the sequence check, the three endings of
MUX.DEC as whole states, the derived outbound quantities, and the telemetry from one command to the
other. -/

namespace Sys2Proof.Machine

/-! ### Rejected lengths (41_mux R78) -/

section
variable {s : State}

theorem exec_muxDec_lenError (h : s.rxlen ≠ 15) :
    exec .muxDec s = .next (raiseReport .lenError 0 s) := by
  rcases execMuxDec_cases s with ⟨_, he⟩ | ⟨hlen, _⟩ | ⟨hlen, _⟩
  · exact he
  all_goals exact absurd (BitVec.eq_of_toNat_eq hlen) h

theorem exec_comDec_lenError (h : s.rxlen ≠ 1) :
    exec .comDec s = .next (raiseReport .lenError 0 s) := by
  rcases execComDec_cases s with ⟨_, he⟩ | ⟨hlen, _⟩
  · exact he
  · exact absurd (BitVec.eq_of_toNat_eq hlen) h

theorem exec_bgfRecv_lenError (h : s.rxlen ≠ 2) :
    exec .bgfRecv s = .next (raiseReport .lenError 0 s) := by
  rcases execBgfRecv_cases s with ⟨_, he⟩ | ⟨hlen, _⟩
  · exact he
  · exact absurd (BitVec.eq_of_toNat_eq hlen) h

end

/-- Settles O38: the report's code is 0x08, and STATUS is all that a report writes. -/
theorem decodersRejectWrongLength : Obligations.DecodersRejectWrongLength :=
  fun _ => ⟨exec_muxDec_lenError, exec_comDec_lenError, exec_bgfRecv_lenError⟩

/-! ### The sequence check (41_mux R80) -/

section
variable {s t : State}

theorem frameAfter_ne : ∀ v : Byte, frameAfter v ≠ v := by decide

/-- The sequence check beside any bits of an ending: SEQ_WARN is added when the leading byte is not
the expected one. -/
theorem seqWarning_or (leading expected c : Byte) : seqWarning leading expected ||| c =
    if leading = expected then c else 0x04 ||| c := by
  unfold seqWarning
  by_cases h : leading = expected
  · rw [if_neg (not_not.2 h), if_pos h]
    exact BitVec.zero_or
  · rw [if_pos h, if_neg h, statusSeqWarn]

/-- Bit 2 of STATUS is SEQ_WARN, in either ending of a delimited frame. -/
theorem getLsbD_seqWarning_or (leading expected : Byte) {c : Byte} (hc : c.getLsbD 2 = false) :
    (seqWarning leading expected ||| c).getLsbD 2 = true ↔ leading ≠ expected := by
  rw [BitVec.getLsbD_or, hc, Bool.or_false, seqWarning]
  split
  · exact iff_of_true rfl ‹_›
  · exact iff_of_false Bool.false_ne_true ‹_›

/-- What every MUX.DEC of a delimited frame leaves in STATUS bit 2 and EXPFRAME, whether or not the
CRC matches. -/
theorem exec_muxDec_sequence (hlen : s.rxlen = 15) (h : exec .muxDec s = .next t) :
    (t.status.getLsbD 2 = true ↔ rxAt s 0 ≠ s.expframe) ∧ t.expframe = frameAfter s.expframe := by
  rw [rxAt_eq (by omega)]
  rcases execMuxDec_cases s with ⟨hn, _⟩ | ⟨_, _, he⟩ | ⟨_, _, he⟩
  · exact absurd (congrArg BitVec.toNat hlen) hn
  all_goals
    cases h.symm.trans he
    exact ⟨getLsbD_seqWarning_or _ _ rfl, nextFrame_eq s.expframe⟩

/-- A second decode of the same buffer checks the same leading byte against an EXPFRAME one further
(41_mux R80, R81). -/
theorem exec_muxDec_twice (hlen : s.rxlen = 15) : ∃ t u, exec .muxDec s = .next t ∧
    exec .muxDec t = .next u ∧ u.expframe = frameAfter (frameAfter s.expframe) ∧
    (t.status.getLsbD 2 = true ↔ rxAt s 0 ≠ s.expframe) ∧
    (u.status.getLsbD 2 = true ↔ rxAt s 0 ≠ frameAfter s.expframe) := by
  obtain ⟨t, ht⟩ := exec_completes .muxDec s
  obtain ⟨u, hu⟩ := exec_completes .muxDec t
  obtain ⟨hwarn, hexp⟩ := exec_muxDec_sequence hlen ht
  obtain ⟨hrxlen, -⟩ := exec_rxlen_flags rfl ht (by simp)
  obtain ⟨hwarn', hexp'⟩ := exec_muxDec_sequence (hrxlen.trans hlen) hu
  rw [hexp] at hwarn' hexp'
  rw [exec_rxAt rfl ht (by simp) (by omega)] at hwarn'
  exact ⟨t, u, ht, hu, hexp', hwarn, hwarn'⟩

end

/-- Settles O39: the check comes before the CRC is looked at. -/
theorem sequenceCheckAlwaysAdvances : Obligations.SequenceCheckAlwaysAdvances := by
  intro s hlen
  obtain ⟨t, ht⟩ := exec_completes .muxDec s
  exact ⟨t, ht, exec_muxDec_sequence hlen ht⟩

/-! ### The endings of MUX.DEC as whole states (41_mux R81) -/

section
variable {s : State}

theorem exec_muxDec_rejected (hlen : s.rxlen = 15)
    (hcrc : crc8Compute s.params (rxShown s 14) ≠ rxAt s 14) : exec .muxDec s = .next { s with
      expframe := frameAfter s.expframe
      status := if rxAt s 0 = s.expframe then 0x02 else 0x06 } := by
  rw [rxShown_eq (by omega), rxAt_eq (by omega)] at hcrc
  rw [exec_muxDec_crcError (congrArg BitVec.toNat hlen) (beq_false_of_ne hcrc),
    rxAt_eq (by omega), raiseReport, seqWarning_or, advanceExpframe, nextFrame_eq]
  rfl

/-- The fields of an inbound frame as host reads of RXBUF show them (30_encoding R59). -/
theorem unpackTelemetry_eq (s : State) : unpackTelemetry s = { s with
    frameno := if 1 ≤ (rxAt s 0).toNat ∧ (rxAt s 0).toNat ≤ 100 then rxAt s 0 else s.frameno
    dist := rxAt s 1 ++ rxAt s 2 ++ rxAt s 3 ++ rxAt s 4
    speed := rxAt s 5
    chassis := rxAt s 6
    motor := rxAt s 7
    fuel := if (rxAt s 8).toNat ≤ 40 then rxAt s 8 else s.fuel
    rpm := if be32 (rxAt s 9) (rxAt s 10) (rxAt s 11) (rxAt s 12) ≤ 10000
      then BitVec.ofNat 16 (be32 (rxAt s 9) (rxAt s 10) (rxAt s 11) (rxAt s 12)) else s.rpm
    batt := rxAt s 13
    lastcrc := rxAt s 14 } := by
  simp only [unpackTelemetry, setRpm, setFuel, setFrameno, be32_eq_append, rxAt_eq, Nat.reduceLT,
    frameInBound_iff, fuelInBound_iff, rpmInBound_iff]

/-- The telemetry registers and EXPFRAME are apart, so unpacking may come first. -/
theorem unpackTelemetry_advanceExpframe (s : State) :
    unpackTelemetry (advanceExpframe s) = advanceExpframe (unpackTelemetry s) := by
  rfl

end

/-- Settles O40: the three endings as whole states, then the sequence check of both decodes. -/
theorem muxDecValidatesAndUnpacks : Obligations.MuxDecValidatesAndUnpacks := by
  refine ⟨rfl, fun s => ⟨exec_muxDec_lenError, exec_muxDec_rejected, fun hlen hcrc => ?_,
    fun hlen => ?_⟩⟩
  · rw [exec_muxDec_accepted ⟨hlen, hcrc⟩, unpackTelemetry_advanceExpframe, unpackTelemetry_eq,
      complete, seqWarning_or, ← rxAt_eq (by omega), advanceExpframe, nextFrame_eq]
    rfl
  · obtain ⟨t, u, ht, hu, hexp, hwarn, hwarn'⟩ := exec_muxDec_twice hlen
    refine ⟨t, u, ht, hu, hexp, fun hfirst => ?_, fun hahead => ⟨?_, ?_⟩⟩
    · have hlead : rxAt s 0 = s.expframe :=
        not_not.1 fun hne => Bool.false_ne_true (hfirst.symm.trans (hwarn.2 hne))
      exact hwarn'.2 (hlead ▸ (frameAfter_ne _).symm)
    · exact hwarn.2 (hahead ▸ frameAfter_ne _)
    · exact Bool.eq_false_iff.2 fun hset => hwarn'.1 hset hahead

/-! ### The derived outbound quantities (41_mux R83 to R86) -/

/-- Settles O42: the frame bytes are those of O41, and the ranges follow from the bounds. -/
theorem derivedOutboundQuantities : Obligations.DerivedOutboundQuantities := by
  intro s hb
  obtain ⟨-, hpacks⟩ := muxEncPacksOutboundFrame
  obtain ⟨t, ht, -, hbit, -, -, -, -, -, -, hpct, hrpm, -⟩ := hpacks s
  have hfuel := hb.fuel
  have hrpmBound := hb.rpm
  specialize hpct hfuel
  refine ⟨t, ht, hpct, by omega, hrpm, by omega, ?_, by omega, ?_, ?_, ?_⟩
  · exact (Bool.eq_iff_iff.1 (hbit 3 (by omega))).trans decide_eq_true_iff
  · exact (Bool.eq_iff_iff.1 (hbit 4 (by omega))).trans decide_eq_true_iff
  · rw [hpct]
    simp +contextual
  · rw [hrpm]
    simp +contextual

/-- Settles O43: the frame is packed from other registers, and MUX.ENC overwrites STATUS. -/
theorem muxEncIgnoresStatusAndSequence : Obligations.MuxEncIgnoresStatusAndSequence := by
  intro s t x y z h
  cases h.symm.trans (exec_muxEnc s)
  rfl

/-! ### The telemetry between MUX.DEC and MUX.ENC (41_mux R88) -/

section
variable {s t : State}

theorem sameTelemetry_refl (s : State) : sameTelemetry s s :=
  ⟨rfl, rfl, rfl, rfl, rfl, rfl, rfl, rfl, rfl⟩

theorem exec_muxDec_sameTelemetry (hn : ¬ muxAccepts s) (h : exec .muxDec s = .next t) :
    sameTelemetry s t := by
  rcases execMuxDec_cases s with ⟨_, he⟩ | ⟨hlen, hcrc, _⟩ | ⟨_, _, he⟩
  · cases h.symm.trans he
    exact sameTelemetry_refl s
  · exact absurd ((muxAccepts_iff s).2 ⟨hlen, hcrc⟩) hn
  · cases h.symm.trans he
    exact sameTelemetry_refl s

theorem exec_sameTelemetry_of_not_mayWrite {i : Instr} (hw : WellFormed i)
    (hn : ¬ mayWriteTelemetry i s) (h : exec i s = .next t) : sameTelemetry s t := by
  obtain ⟨hdec, hwr⟩ := not_or.1 hn
  by_cases hi : i = .muxDec
  · subst hi
    exact exec_muxDec_sameTelemetry (fun ha => hdec ⟨rfl, ha⟩) h
  · exact exec_sameTelemetry hw h hi fun a v he ha => hwr ⟨a, v, he, ha⟩

theorem sameTelemetry_trans {u : State} (hst : sameTelemetry s t) (htu : sameTelemetry t u) :
    sameTelemetry s u := by
  unfold sameTelemetry at *
  simp only [htu, hst, and_self]

theorem runScript_sameTelemetry {script : List Instr} (hw : ∀ i ∈ script, WellFormed i)
    (hk : keepsTelemetry script s) (h : runScript script s = .next t) : sameTelemetry s t := by
  induction script generalizing s with
  | nil => cases h; exact sameTelemetry_refl _
  | cons i rest ih =>
    obtain ⟨hi, hrest⟩ := List.forall_mem_cons.1 hw
    obtain ⟨u, hu⟩ := exec_completes i s
    obtain ⟨hn, hkrest⟩ := (keepsTelemetry_cons_next hu rest).1 hk
    rw [runScript_cons_next hu] at h
    exact sameTelemetry_trans (exec_sameTelemetry_of_not_mayWrite hi hn hu) (ih hrest hkrest h)

/-- What an accepted frame leaves in the registers that MUX.ENC sends whole or rescaled. -/
theorem exec_muxDec_telemetry (ha : muxAccepts s) (h : exec .muxDec s = .next t) :
    t.dist = rxAt s 1 ++ rxAt s 2 ++ rxAt s 3 ++ rxAt s 4 ∧ t.speed = rxAt s 5 ∧
      ((rxAt s 8).toNat ≤ 40 → t.fuel = rxAt s 8) ∧
      (be32 (rxAt s 9) (rxAt s 10) (rxAt s 11) (rxAt s 12) ≤ 10000 →
        t.rpm.toNat = be32 (rxAt s 9) (rxAt s 10) (rxAt s 11) (rxAt s 12)) := by
  cases h.symm.trans (exec_muxDec_accepted ha)
  rw [unpackTelemetry_advanceExpframe, unpackTelemetry_eq]
  refine ⟨rfl, rfl, fun hfuel => if_pos hfuel, fun hrpm => ?_⟩
  rw [complete_rpm, advanceExpframe_rpm, if_pos hrpm, BitVec.toNat_ofNat,
    Nat.mod_eq_of_lt (by omega)]

theorem extractLsb'_append_byte {n : Nat} (x : BitVec n) (y : Byte) (start : Nat) :
    (x ++ y).extractLsb' (start + 8) 8 = x.extractLsb' start 8 :=
  BitVec.extractLsb'_append_eq_of_le (Nat.le_add_left 8 start)

/-- The bytes of a 32-bit value, the high one first (20_memory R39). -/
theorem extractLsb'_append_bytes (a b c d : Byte) :
    (a ++ b ++ c ++ d).extractLsb' 24 8 = a ∧ (a ++ b ++ c ++ d).extractLsb' 16 8 = b ∧
      (a ++ b ++ c ++ d).extractLsb' 8 8 = c ∧ (a ++ b ++ c ++ d).extractLsb' 0 8 = d := by
  refine ⟨?_, ?_, ?_, BitVec.extractLsb'_append_eq_right⟩
  · exact (extractLsb'_append_byte _ d 16).trans <| (extractLsb'_append_byte _ c 8).trans <|
      (extractLsb'_append_byte a b 0).trans BitVec.extractLsb'_eq_self
  · exact (extractLsb'_append_byte _ d 8).trans <| (extractLsb'_append_byte _ c 0).trans
      BitVec.extractLsb'_append_eq_right
  · exact (extractLsb'_append_byte _ d 0).trans BitVec.extractLsb'_append_eq_right

end

/-- Settles O44: an accepted decode fills the registers, the accesses between keep them, and MUX.ENC
sends what they hold (O41). -/
theorem encodeAfterDecodeReturnsTelemetry : Obligations.EncodeAfterDecodeReturnsTelemetry := by
  intro s u v between ha hu hw hk hv
  obtain ⟨hdist, hspeed, hfuel, hrpm⟩ := exec_muxDec_telemetry ha hu
  obtain ⟨-, hdist', hspeed', -, -, hfuel', hrpm', -, -⟩ := runScript_sameTelemetry hw hk hv
  obtain ⟨-, hpacks⟩ := muxEncPacksOutboundFrame
  obtain ⟨t, ht, -, -, -, h2, h3, h4, h5, h6, h7, h8, -⟩ := hpacks v
  obtain ⟨hb3, hb2, hb1, hb0⟩ :=
    extractLsb'_append_bytes (rxAt s 1) (rxAt s 2) (rxAt s 3) (rxAt s 4)
  rw [hdist', hdist] at h2 h3 h4 h5
  refine ⟨t, ht, h2.trans hb3, h3.trans hb2, h4.trans hb1, h5.trans hb0,
    h6.trans (hspeed'.trans hspeed), fun hle => ?_, fun hle => ?_⟩
  · rw [hfuel', hfuel hle] at h7
    exact h7 hle
  · rw [h8, hrpm', hrpm hle]

end Sys2Proof.Machine

/-! SUPPORT. The serial codecs (42_serial): the endings of COM.DEC, BGF.SEND and BGF.RECV as whole
states, what a send leaves in the cache, and how echoes and drained frames reach ACK. -/

namespace Sys2Proof.Machine

/-! ### COM.DEC (42_serial R89) -/

theorem exec_comDec_stored {s : State} (h : s.rxlen = 1) :
    exec .comDec s = .next (complete 0 { s with cmds := rxByte s 0 }) := by
  rcases execComDec_cases s with ⟨hn, _⟩ | ⟨_, he⟩
  · exact absurd (congrArg BitVec.toNat h) hn
  · exact he

/-- Settles O45: both endings of COM.DEC, the byte as a host read of RXBUF shows it. -/
theorem comDecStoresCommandByte : Obligations.ComDecStoresCommandByte := by
  refine ⟨rfl, fun s => ⟨fun h => ?_, exec_comDec_lenError⟩⟩
  rw [exec_comDec_stored h, rxAt_eq (by omega)]
  rfl

/-! ### The endings of BGF.SEND (42_serial R91) -/

/-- The state that a BGF.SEND of a slot leaves when it produces the slot's message. -/
def bgfSent (slot : Fin 5) (s : State) : State :=
  complete 0 (recordSent slot (bgfMessage s.params s.flags slot)
    (produceFrame [(bgfMessage s.params s.flags slot).id,
      (bgfMessage s.params s.flags slot).flag] s))

section
variable {s t : State} {slot : Fin 5}

theorem exec_bgfSend_suppressed (h : s.cache[slot] = some (bgfMessage s.params s.flags slot)) :
    exec (.bgfSend (slotOperand slot)) s =
      .next (complete statusSuppr (produceNoFrame s)) := by
  rcases execBgfSend_cases (slotOperand slot) s with ⟨hn, _⟩ | ⟨k, hk, ⟨_, he⟩ | ⟨hne, _⟩⟩
  · cases (namedSlot_slotOperand slot).symm.trans hn
  · exact he
  · cases (namedSlot_slotOperand slot).symm.trans hk
    exact absurd h hne

theorem exec_bgfSend_produced (h : s.cache[slot] ≠ some (bgfMessage s.params s.flags slot)) :
    exec (.bgfSend (slotOperand slot)) s = .next (bgfSent slot s) := by
  rcases execBgfSend_cases (slotOperand slot) s with ⟨hn, _⟩ | ⟨k, hk, ⟨hc, _⟩ | ⟨_, he⟩⟩
  · cases (namedSlot_slotOperand slot).symm.trans hn
  · cases (namedSlot_slotOperand slot).symm.trans hk
    exact absurd hc h
  · cases (namedSlot_slotOperand slot).symm.trans hk
    exact he

/-- The message of a producing send goes into TXBUF as id byte and flag byte. -/
theorem txAt_bgfSent (slot : Fin 5) (s : State) :
    txAt (bgfSent slot s) 0 = (bgfMessage s.params s.flags slot).id ∧
      txAt (bgfSent slot s) 1 = (bgfMessage s.params s.flags slot).flag := by
  rw [txAt_eq (by omega), txAt_eq (by omega)]
  exact ⟨txByte_produceFrame _ s 0, txByte_produceFrame _ s 1⟩

/-- The addresses outside those of STATUS, TXLEN and TXBUF[0..n-1] hold other registers. -/
theorem regAt_of_not_mem_produced {n : Nat} (hn : n ≤ 16) {a : Addr}
    (ha : a ∉ 0x01 :: 0x05 :: (List.range n).map fun i => BitVec.ofNat 8 (0x20 + i)) :
    regAt a ≠ .status ∧ regAt a ≠ .txlen ∧ ∀ i < n, regAt a ≠ .txbuf i := by
  simp only [List.mem_cons, List.mem_map, List.mem_range, not_or] at ha
  obtain ⟨hstatus, htxlen, htx⟩ := ha
  refine ⟨fun h => ?_, fun h => ?_, fun i hi h => ?_⟩
  · exact hstatus ((regAt_eq_iff (b := 0x01) (by decide)).1 h)
  · exact htxlen ((regAt_eq_iff (b := 0x05) (by decide)).1 h)
  · have hr := regAt_tx (i := i) (by omega)
    exact htx ⟨i, hi, ((regAt_eq_iff (by simp [hr])).1 (h.trans hr.symm)).symm⟩

/-- The cache is hidden, so a producing send shows as the frame it produces. -/
theorem sameReadsOutside_bgfSent (slot : Fin 5) (s : State) :
    sameReadsOutside [0x01, 0x05, 0x20, 0x21] s (bgfSent slot s) := by
  intro a ha
  obtain ⟨hstatus, htxlen, htx⟩ := regAt_of_not_mem_produced (n := 2) (by omega) ha
  exact readRegister_complete_produceFrame (regIndexOk_regAt a) hstatus htxlen
    (bytes := [(bgfMessage s.params s.flags slot).id, (bgfMessage s.params s.flags slot).flag])
    htx 0 s

end

/-- Settles O46: the endings of BGF.SEND, the message written as its id and flag. -/
theorem bgfSendProducesOrSuppresses : Obligations.BgfSendProducesOrSuppresses := by
  refine ⟨fun s slot => ?_, fun s operand h => ?_⟩
  · obtain ⟨hid, hflag⟩ := txAt_bgfSent slot s
    have hm := bgfMessage_eq s slot
    refine ⟨fun h => exec_bgfSend_suppressed (hm ▸ h), fun h => ?_⟩
    rw [hm] at hid hflag
    refine ⟨bgfSent slot s, exec_bgfSend_produced (hm ▸ h), ?_, hid, hflag,
      sameReadsOutside_bgfSent slot s⟩
    rw [← hm]
    rfl
  · rw [exec_bgfSend_no_slot h, ofNat_succ_mod]
    rfl

/-! ### What sends leave in the cache -/

section
variable {s t : State} {slot : Fin 5}

theorem getElem_cache_recordSent (k slot : Fin 5) (msg : BgfMessage) (s : State) :
    (recordSent k msg s).cache[slot] = if k = slot then some msg else s.cache[slot] := by
  simp only [recordSent_cache, Fin.getElem_fin, Vector.getElem_set, Fin.ext_iff]

/-- After a send of a slot, produced or suppressed, the cache holds the slot's message. -/
theorem exec_bgfSend_cached (h : exec (.bgfSend (slotOperand slot)) s = .next t) :
    t.cache[slot] = some (bgfMessage t.params t.flags slot) := by
  obtain ⟨-, hflags⟩ := exec_rxlen_flags rfl h (by simp)
  rw [exec_params rfl h, hflags]
  by_cases hc : s.cache[slot] = some (bgfMessage s.params s.flags slot)
  · cases h.symm.trans (exec_bgfSend_suppressed hc)
    exact hc
  · cases h.symm.trans (exec_bgfSend_produced hc)
    exact (getElem_cache_recordSent slot slot _ _).trans (if_pos rfl)

/-- With the id in the flag field a slot's message does not depend on FLAGS (42_serial R90). -/
theorem bgfMessage_of_flagFieldIsId {p : Params} (h : p.bgfFlagFieldIsId = true)
    (flags flags' : Byte) (slot : Fin 5) : bgfMessage p flags slot = bgfMessage p flags' slot := by
  simp only [bgfMessage, h, if_true]

/-- With the id in the flag field no access changes a cache entry that holds its slot's message: a
send of the slot would record the same message. -/
theorem exec_keeps_cached {i : Instr} (hw : WellFormed i) (hid : s.params.bgfFlagFieldIsId = true)
    (hc : s.cache[slot] = some (bgfMessage s.params s.flags slot)) (h : exec i s = .next t) :
    t.cache[slot] = s.cache[slot] ∧
      t.cache[slot] = some (bgfMessage t.params t.flags slot) := by
  have hkeep : t.cache[slot] = s.cache[slot] := by
    cases i with
    | bgfSend operand =>
      rcases execBgfSend_cases operand s with ⟨_, he⟩ | ⟨k, _, ⟨_, he⟩ | ⟨_, he⟩⟩ <;>
        cases h.symm.trans he
      · rfl
      · rfl
      · refine (getElem_cache_recordSent k slot _ _).trans ?_
        split
        next hk => rw [hc, hk]
        next => rfl
    | _ => rw [exec_cache hw h (by simp)]
  refine ⟨hkeep, ?_⟩
  rw [hkeep, hc, exec_params hw h, bgfMessage_of_flagFieldIsId hid]

theorem runScript_keeps_cached {script : List Instr} (hw : ∀ i ∈ script, WellFormed i)
    (hid : s.params.bgfFlagFieldIsId = true)
    (hc : s.cache[slot] = some (bgfMessage s.params s.flags slot)) :
    ∃ t, runScript script s = .next t ∧ t.cache[slot] = s.cache[slot] ∧
      t.cache[slot] = some (bgfMessage t.params t.flags slot) := by
  induction script generalizing s with
  | nil => exact ⟨s, rfl, rfl, hc⟩
  | cons i rest ih =>
    obtain ⟨hi, hrest⟩ := List.forall_mem_cons.1 hw
    obtain ⟨u, hu⟩ := exec_completes i s
    obtain ⟨hkeep, hcu⟩ := exec_keeps_cached hi hid hc hu
    obtain ⟨t, ht, hkeep', hct⟩ := ih hrest (by rw [exec_params hi hu, hid]) hcu
    exact ⟨t, (runScript_cons_next hu rest).trans ht, hkeep'.trans hkeep, hct⟩

end

/-- Settles O49: the first send leaves the slot's message in the cache, and no access changes the
entry or the message. -/
theorem idInFlagFieldSuppressesForever : Obligations.IdInFlagFieldSuppressesForever := by
  intro s u slot between hid hu hw
  obtain ⟨v, hv, hkeep, hc⟩ :=
    runScript_keeps_cached hw (by rw [exec_params rfl hu, hid]) (exec_bgfSend_cached hu)
  exact ⟨v, hv, hkeep, exec_bgfSend_suppressed hc⟩

/-! ### The endings of BGF.RECV (42_serial R92) -/

/-- The state with the message in RXBUF recorded in BGF_RXID and BGF_RXFLAG. -/
def bgfReceived (s : State) : State :=
  { s with bgfRxid := rxByte s 0, bgfRxflag := rxByte s 1 }

/-- The state that a BGF.RECV leaves when it echoes the cached message of a slot. -/
def bgfEchoed (slot : Fin 5) (s : State) : State :=
  complete statusAcked (setAckBit slot (bgfReceived s))

section
variable {s t : State} {slot : Fin 5}

theorem exec_bgfRecv_unknown (hlen : s.rxlen = 2)
    (hid : ∀ slot : Fin 5, s.params.bgfId[slot] ≠ (receivedMessage s).id) :
    exec .bgfRecv s = .next (raiseReport .idError 0 (countIdError s)) := by
  have hslot : slotOf s.params (rxByte s 0) = none := slotOf_eq_none.2 hid
  rcases execBgfRecv_cases s with ⟨hn, _⟩ | ⟨_, ⟨_, he⟩ | ⟨k, hk, _⟩⟩
  · exact absurd (congrArg BitVec.toNat hlen) hn
  · exact he
  · cases hslot.symm.trans hk

theorem slotOf_rxByte (hv : s.params.valid = true)
    (hid : s.params.bgfId[slot] = (receivedMessage s).id) :
    slotOf s.params (rxByte s 0) = some slot :=
  (congrArg (slotOf s.params) hid.symm).trans (slotOf_bgfId hv slot)

theorem exec_bgfRecv_echoed (hv : s.params.valid = true) (hlen : s.rxlen = 2)
    (hid : s.params.bgfId[slot] = (receivedMessage s).id)
    (hc : s.cache[slot] = some (receivedMessage s)) :
    exec .bgfRecv s = .next (bgfEchoed slot s) :=
  exec_bgfRecv_echo hlen (slotOf_rxByte hv hid) hc

theorem exec_bgfRecv_mismatch (hv : s.params.valid = true) (hlen : s.rxlen = 2)
    (hid : s.params.bgfId[slot] = (receivedMessage s).id)
    (hc : s.cache[slot] ≠ some (receivedMessage s)) :
    exec .bgfRecv s = .next (complete 0 (bgfReceived s)) := by
  have hslot := slotOf_rxByte hv hid
  rcases execBgfRecv_cases s with ⟨hn, _⟩ | ⟨_, ⟨hn, _⟩ | ⟨k, hk, ⟨hk', _⟩ | ⟨_, he⟩⟩⟩
  · exact absurd (congrArg BitVec.toNat hlen) hn
  · cases hslot.symm.trans hn
  · cases hslot.symm.trans hk
    exact absurd hk' hc
  · exact he

theorem receivedMessage_eq (s : State) : receivedMessage s = ⟨rxAt s 0, rxAt s 1⟩ := by
  rw [rxAt_eq (by omega), rxAt_eq (by omega), receivedMessage]

end

/-- Settles O47: the four endings of BGF.RECV, the message as host reads of RXBUF show it. -/
theorem bgfRecvChecksIdAndEcho : Obligations.BgfRecvChecksIdAndEcho := by
  refine ⟨rfl, fun s hv => ⟨exec_bgfRecv_lenError, fun hlen hid => ?_, fun hlen slot hid =>
    ⟨fun hc => ?_, fun hc => ?_⟩⟩⟩
  all_goals have hm := receivedMessage_eq s
  · rw [exec_bgfRecv_unknown hlen (hm ▸ hid), ofNat_succ_mod]
    rfl
  · rw [exec_bgfRecv_echoed hv hlen (hm ▸ hid) (hm ▸ hc), ← ackBit_eq, rxAt_eq (by omega),
      rxAt_eq (by omega)]
    rfl
  · rw [exec_bgfRecv_mismatch hv hlen (hm ▸ hid) (hm ▸ hc), rxAt_eq (by omega),
      rxAt_eq (by omega)]
    rfl

/-! ### ACK after one frame, and after any number (42_serial R93) -/

section
variable {s t : State}

/-- The message in RXBUF is that of a slot with the slot's id, and the cache holds it. -/
def echoMatches (s : State) (msg : BgfMessage) (slot : Fin 5) : Bool :=
  msg.id == s.params.bgfId[slot] && s.cache[slot] == some msg

theorem echoMatches_iff (s : State) (msg : BgfMessage) (slot : Fin 5) :
    echoMatches s msg slot = true ↔ s.params.bgfId[slot] = msg.id ∧ s.cache[slot] = some msg := by
  simp only [echoMatches, Bool.and_eq_true, beq_iff_eq, eq_comm (a := msg.id)]

/-- An id names one slot, so no other slot's bit is set by its echo. -/
theorem echoMatches_eq_decide (hv : s.params.valid = true) {msg : BgfMessage} {k : Fin 5}
    (hid : s.params.bgfId[k] = msg.id) (hc : s.cache[k] = some msg) (slot : Fin 5) :
    echoMatches s msg slot = decide (slot.val = k.val) := by
  rw [Bool.eq_iff_iff, echoMatches_iff, decide_eq_true_iff, ← Fin.ext_iff]
  refine ⟨fun ⟨hid', _⟩ => bgfId_injective hv (hid'.trans hid.symm), ?_⟩
  rintro rfl
  exact ⟨hid, hc⟩

/-- A delimited BGF.RECV ors into ACK the bit of the slot that the message matches, if any. -/
theorem exec_bgfRecv_getLsbD_ack (hv : s.params.valid = true) (hlen : s.rxlen = 2)
    (h : exec .bgfRecv s = .next t) (slot : Fin 5) :
    t.ack.getLsbD slot.val =
      (s.ack.getLsbD slot.val || echoMatches s (receivedMessage s) slot) := by
  by_cases hm : ∃ k, echoMatches s (receivedMessage s) k = true
  · obtain ⟨k, hk⟩ := hm
    obtain ⟨hid, hc⟩ := (echoMatches_iff s _ k).1 hk
    cases h.symm.trans (exec_bgfRecv_echoed hv hlen hid hc)
    rw [echoMatches_eq_decide hv hid hc]
    exact getLsbD_setAckBit k (bgfReceived s) slot.isLt
  · have hack : t.ack = s.ack := by
      by_contra hne
      obtain ⟨_, k, hk, hc, _⟩ := exec_bgfRecv_ack_ne h hne
      exact hm ⟨k, (echoMatches_iff s _ k).2 ⟨bgfId_of_slotOf hk, hc⟩⟩
    rw [hack, Bool.eq_false_iff.2 (not_exists.1 hm slot), Bool.or_false]

theorem receivedMessage_loadedRx (msg : BgfMessage) (s : State) :
    receivedMessage (loadedRx [msg.id, msg.flag] s) = msg := by
  have hread : [rxByte (loadedRx [msg.id, msg.flag] s) 0,
      rxByte (loadedRx [msg.id, msg.flag] s) 1] = [msg.id, msg.flag] :=
    rxBytes_loadedRx [msg.id, msg.flag] s
  injection hread with hid hflag
  rw [receivedMessage, hid, List.singleton_inj.1 hflag]

/-- Presenting a message leaves it in RXBUF for the rest of the script. -/
theorem runScript_present (msg : BgfMessage) (s : State) (rest : List Instr) :
    runScript (loadRx [msg.id, msg.flag] ++ rest) s =
      runScript rest (loadedRx [msg.id, msg.flag] s) :=
  runScript_append_next (runScript_loadRx (by simp) s) rest

/-- One frame drained: the cache is kept, and ACK takes the bit of the slot that it matches. -/
theorem runScript_drainFrame (hv : s.params.valid = true) (msg : BgfMessage) :
    ∃ t, runScript (loadRx [msg.id, msg.flag] ++ [.bgfRecv]) s = .next t ∧
      t.params = s.params ∧ t.cache = s.cache ∧
      ∀ slot : Fin 5, t.ack.getLsbD slot.val =
        (s.ack.getLsbD slot.val || echoMatches s msg slot) := by
  obtain ⟨t, ht⟩ := exec_completes .bgfRecv (loadedRx [msg.id, msg.flag] s)
  have hack := exec_bgfRecv_getLsbD_ack (s := loadedRx [msg.id, msg.flag] s) hv rfl ht
  rw [receivedMessage_loadedRx] at hack
  have hparams : t.params = (loadedRx [msg.id, msg.flag] s).params := exec_params rfl ht
  have hcache : t.cache = (loadedRx [msg.id, msg.flag] s).cache := exec_cache rfl ht (by simp)
  exact ⟨t, (runScript_present msg s _).trans (runScript_cons_next ht []), hparams, hcache, hack⟩

end

/-- Settles O50, by induction on the frames: draining one frame keeps the ids and the cache that the
rest are compared with. -/
theorem drainedFramesOrTheirAckBits : Obligations.DrainedFramesOrTheirAckBits := by
  intro frames s hv
  induction frames generalizing s with
  | nil => exact ⟨s, rfl, rfl, fun slot => (Bool.or_false _).symm⟩
  | cons msg frames ih =>
    obtain ⟨u, hu, hparams, hcache, hack⟩ := runScript_drainFrame hv msg
    obtain ⟨t, ht, hcache', hack'⟩ := ih u (hparams ▸ hv)
    refine ⟨t, (runScript_append_next hu (drainBgf frames)).trans ht, hcache'.trans hcache,
      fun slot => ?_⟩
    rw [hack' slot, hack slot, hparams, hcache, List.any_cons, Bool.or_assoc]
    rfl

/-! ### The laws of sending, echoing, acknowledging and clearing (42_serial R94) -/

section
variable {s t u : State} {slot : Fin 5}

theorem exec_wr_flags (v : Byte) (s : State) :
    exec (.wr 0x07 v) s = .next { s with flags := v } :=
  exec_wr_register (by decide) (by decide) v s

theorem exec_wr_ack (v : Byte) (s : State) : exec (.wr 0x09 v) s = .next (clearAck v s) :=
  exec_wr_register (by decide) (by decide) v s

/-- STATUS 0x01 is the code of a send that produced. -/
theorem exec_bgfSend_status_ok (h : exec (.bgfSend (slotOperand slot)) s = .next u)
    (hstatus : u.status = 0x01) : u = bgfSent slot s := by
  by_cases hc : s.cache[slot] = some (bgfMessage s.params s.flags slot)
  · cases h.symm.trans (exec_bgfSend_suppressed hc)
    exact absurd hstatus (by simp only [complete_status]; decide)
  · exact Host.Outcome.next.inj (h.symm.trans (exec_bgfSend_produced hc))

/-- A second send of a slot, with FLAGS as they were, is suppressed. -/
theorem exec_bgfSend_twice (h : exec (.bgfSend (slotOperand slot)) s = .next t) :
    exec (.bgfSend (slotOperand slot)) t = .next (complete statusSuppr (produceNoFrame t)) :=
  exec_bgfSend_suppressed (exec_bgfSend_cached h)

/-- An acknowledgement bit is set once: a second echo of the message changes nothing. -/
theorem bgfEchoed_bgfEchoed (slot : Fin 5) (s : State) :
    bgfEchoed slot (bgfEchoed slot s) = bgfEchoed slot s := by
  have hack : s.ack ||| 1#5 <<< slot.val ||| 1#5 <<< slot.val = s.ack ||| 1#5 <<< slot.val := by
    rw [BitVec.or_assoc, BitVec.or_self]
  exact congrArg (fun ack => { bgfEchoed slot s with ack := ack }) hack

theorem getLsbD_bgfEchoed (slot : Fin 5) (s : State) :
    (bgfEchoed slot s).ack.getLsbD slot.val = true :=
  (getLsbD_setAckBit slot (bgfReceived s) slot.isLt).trans (by simp)

theorem getLsbD_clearAck_slot (slot : Fin 5) (s : State) :
    (clearAck (BitVec.ofNat 8 (2 ^ slot.val)) s).ack.getLsbD slot.val = false := by
  have hbit : ∀ k : Fin 5, (BitVec.ofNat 8 (2 ^ k.val)).getLsbD k.val = true := by decide
  rw [getLsbD_clearAck, hbit, Bool.not_true, Bool.and_false]

/-- A send of a slot whose flag byte is no longer the one last sent produces its message. -/
theorem exec_bgfSend_flags_changed (h : exec (.bgfSend (slotOperand slot)) s = .next u)
    {flags : Byte} (hne : slotFlag { u with flags := flags } slot ≠ slotFlag u slot) :
    exec (.bgfSend (slotOperand slot)) { u with flags := flags } =
      .next (bgfSent slot { u with flags := flags }) := by
  refine exec_bgfSend_produced fun hc => hne ?_
  rw [bgfMessage_eq] at hc
  have hcu := exec_bgfSend_cached h
  rw [bgfMessage_eq] at hcu
  exact congrArg BgfMessage.flag (Option.some.inj (hc.symm.trans hcu))

/-- A slot's cached message, presented and received, sets the slot's ACK bit, and receiving it again
changes nothing. -/
theorem runScript_echo (hv : s.params.valid = true) {msg : BgfMessage}
    (hid : s.params.bgfId[slot] = msg.id) (hc : s.cache[slot] = some msg) :
    ∃ t, runScript (loadRx [msg.id, msg.flag] ++ [.bgfRecv]) s = .next t ∧
      t.ack.getLsbD slot.val = true ∧ t.status = 0x41 ∧ exec .bgfRecv t = .next t := by
  rw [← receivedMessage_loadedRx msg s] at hid hc
  have hfirst := exec_bgfRecv_echoed (s := loadedRx [msg.id, msg.flag] s) hv rfl hid hc
  have hsecond := exec_bgfRecv_echoed
    (s := bgfEchoed slot (loadedRx [msg.id, msg.flag] s)) hv rfl hid hc
  rw [bgfEchoed_bgfEchoed] at hsecond
  exact ⟨_, (runScript_present msg s _).trans (runScript_cons_next hfirst []),
    getLsbD_bgfEchoed slot _, rfl, hsecond⟩

end

/-- Settles O48: the cache holds the slot's message after a send, so a second send is suppressed,
its echo acknowledged, and a send with another flag byte produced. -/
theorem bgfSendEchoClearLaws : Obligations.BgfSendEchoClearLaws := by
  intro s slot hv
  refine ⟨?_, fun u hu hstatus => ?_, fun u hu _ flags hne => ?_⟩
  · obtain ⟨t, ht⟩ := exec_completes (.bgfSend (slotOperand slot)) s
    exact ⟨_, (runScript_cons_next ht _).trans (runScript_cons_next (exec_bgfSend_twice ht) []),
      rfl, rfl⟩
  · have hc := exec_bgfSend_cached hu
    obtain rfl := exec_bgfSend_status_ok hu hstatus
    obtain ⟨hid, hflag⟩ := txAt_bgfSent slot s
    obtain ⟨v, hecho, hbit, hcode, hagain⟩ := runScript_echo (s := bgfSent slot s) hv rfl hc
    refine ⟨v, v, _, ?_, hbit, hcode, hagain, rfl, hcode,
      runScript_cons_next (exec_wr_ack _ v) [], getLsbD_clearAck_slot slot v⟩
    rw [hid, hflag]
    exact hecho
  · exact ⟨_, (runScript_cons_next (exec_wr_flags flags u) _).trans
      (runScript_cons_next (exec_bgfSend_flags_changed hu hne) []), rfl, rfl⟩

end Sys2Proof.Machine

/-! SUPPORT. The control commands (43_control): NOP, the commands that report, and the reserved
codes. -/

namespace Sys2Proof.Machine

/-- Every command byte but NOP's is a command that writes STATUS (10_state R16). -/
theorem isReportingCommand_decodeCommand {c : Byte} (h : decodeCommand c ≠ .nop) :
    isReportingCommand (decodeCommand c) = true := by
  rcases decodeCommand_cases c with ⟨_, hd⟩ | ⟨_, hd⟩ | ⟨_, hd⟩ | ⟨_, hd⟩ | ⟨_, hd⟩ | ⟨_, hd⟩ |
    ⟨_, hd⟩ | ⟨_, _, hd⟩ | ⟨_, hd⟩ | ⟨_, hd⟩
  case inl => exact absurd hd h
  all_goals rw [hd]; rfl

theorem exec_reserved (c : Byte) (s : State) :
    exec (.reserved c) s = .next (raiseReport .illegalCommand 0 s) := rfl

/-- Settles O52: the report IllegalCommand has the code 0x80, and a report writes STATUS only. -/
theorem reservedCodeOnlyReports : Obligations.ReservedCodeOnlyReports :=
  fun c s hc => ⟨(decodeAccess_cmd_eq_reserved_iff c).mpr hc, exec_reserved c s⟩

/-- Settles O51: every command but NOP ends with some bit of STATUS set, so a STATUS of 0x00 before
it is changed. -/
theorem nopChangesNothing : Obligations.NopChangesNothing := by
  refine ⟨rfl, fun s => rfl, fun c i s hd hi => ⟨0x00, ?_⟩⟩
  obtain rfl : decodeCommand c = i := Decoded.instr.inj hd
  obtain ⟨t, ht⟩ := exec_completes (decodeCommand c) { s with status := 0x00 }
  obtain ⟨_, hne⟩ := exec_status_legal (isReportingCommand_decodeCommand hi) ht
  exact ⟨t, ht, hne⟩

end Sys2Proof.Machine

/-! SUPPORT. The steps that perform no access: an idle one (60_exceptions R111) and a reset
(70_reset R112). -/

namespace Sys2Proof.Machine

section
variable {s : State}

theorem takeInput_eq_none (hp : s.pending = []) : takeInput s = none := by
  simp only [takeInput, hp]

theorem takeInput_eq_some {input : HostInput} {rest : List HostInput}
    (hp : s.pending = input :: rest) :
    takeInput s = some (input, { s with pending := rest }) := by
  simp only [takeInput, hp]

theorem guardParams_of_valid {p : Params} (hv : p.valid = true)
    (outcome : Host.Outcome State Fault Refusal) : guardParams p outcome = outcome :=
  if_pos hv

theorem step_idle (hv : s.params.valid = true) (hp : s.pending = []) : step s = .next s := by
  simp only [step, takeInput_eq_none hp, guardParams_of_valid hv]

theorem step_reset {rest : List HostInput} (hv : s.params.valid = true)
    (hp : s.pending = .reset :: rest) :
    step s = .next (resetUnit { s with pending := rest }) := by
  simp only [step, takeInput_eq_some hp, guardParams_of_valid hv]

end

/-- Settles O8: a reset step is `resetUnit` of the rest of the queue, which keeps the host's side. -/
theorem idleAndResetKeepTheHostSide : Obligations.IdleAndResetKeepTheHostSide := by
  intro s hv
  refine ⟨step_idle hv, fun rest hp => ⟨_, step_reset hv hp, ?_, ?_, ?_⟩⟩
  · exact resetUnit_params _
  · exact resetUnit_pending _
  · exact resetUnit_readData _

end Sys2Proof.Machine

/-! SUPPORT. Reset and the host's hazards (70_reset): what a reset leaves in every register, the
CRC fed from reset on, and the safe order of the RPM byte writes. -/

namespace Sys2Proof.Machine

/-! ### The reset state (70_reset R112, R113) -/

/-- The reset state is a fixed point of the reset action. -/
theorem resetUnit_resetWith (p : Params) : resetUnit (State.resetWith p) = State.resetWith p := rfl

/-- Settles O12: the reset action establishes the invariant and keeps the reset state. -/
theorem resetSatisfiesInvariant : Obligations.ResetSatisfiesInvariant := fun p hp =>
  resetUnit_resetWith p ▸ invariant_resetUnit (s := State.resetWith p) hp

theorem byteK_zero (k n : Nat) : byteK k (0 : BitVec n) = 0 := by
  apply BitVec.eq_of_toNat_eq
  simp [byteK_toNat]

/-- The reset column of 10_state R13, by register. -/
theorem readRegister_resetUnit (r : Reg) (s : State) :
    readRegister (resetUnit s) r =
      if r = .crc then s.params.crcInit else if r = .expframe then 0x01 else 0x00 := by
  cases r with
  | dist k => exact byteK_zero k 32
  | rpmHi => exact byteK_zero 1 16
  | rpmLo => exact byteK_zero 0 16
  | _ => rfl

/-- The reset column of 10_state R13, by address. -/
theorem memRead_resetUnit (a : Addr) (s : State) :
    memRead (resetUnit s) a =
      if a = 0x02 then s.params.crcInit else if a = 0x06 then 0x01 else 0x00 := by
  have hcrc : regAt a = .crc ↔ a = 0x02 := regAt_eq_iff (b := 0x02) (by decide)
  have hexp : regAt a = .expframe ↔ a = 0x06 := regAt_eq_iff (b := 0x06) (by decide)
  simp only [memRead, readRegister_resetUnit, hcrc, hexp]

/-- No cache entry is valid after reset (10_state R32). -/
theorem resetUnit_cache_getElem (s : State) (slot : Fin 5) : (resetUnit s).cache[slot] = none := by
  rw [resetUnit_cache]; exact Vector.getElem_replicate slot.isLt

/-- Settles O10: a reset step is `resetUnit`, whose registers, buffers and cache hold their reset
values. -/
theorem resetGivesEveryResetValue : Obligations.ResetGivesEveryResetValue :=
  fun s rest hv hp => ⟨_, step_reset hv hp,
    fun a => memRead_resetUnit a { s with pending := rest },
    resetUnit_cache_getElem { s with pending := rest }⟩

/-- Settles O57: the fold of CRC.BYTES starts at CRC_INIT, which reset puts into CRC. -/
theorem crcUpdMayStartAtReset : Obligations.CrcUpdMayStartAtReset := by
  intro p bytes
  rw [runScript_crcBytes, crc8Compute_eq]
  rfl

/-! ### The RPM write hazard (70_reset R119) -/

section
variable {v : Byte} {s : State}

theorem setRpm_of_le {n : Nat} (h : n ≤ 10000) (s : State) :
    setRpm n s = { s with rpm := BitVec.ofNat 16 n } := by
  rw [setRpm, if_pos ((rpmInBound_iff n).2 h)]

theorem setRpm_of_gt {n : Nat} (h : 10000 < n) (s : State) : setRpm n s = s := by
  rw [setRpm, if_neg fun hb => Nat.not_le.2 h ((rpmInBound_iff n).1 hb)]

/-- A write of the high byte that keeps RPM within its bound. -/
theorem exec_wr_rpmHi_of_le (h : v.toNat * 256 + s.rpm.toNat % 256 ≤ 10000) :
    exec (.wr 0x39 v) s =
      .next { s with rpm := BitVec.ofNat 16 (v.toNat * 256 + s.rpm.toNat % 256) } := by
  rw [exec_wr_rpmHi_eq, be16_byteK_zero, setRpm_of_le h]

/-- A write of the high byte that would take RPM out of its bound. -/
theorem exec_wr_rpmHi_of_gt (h : 10000 < v.toNat * 256 + s.rpm.toNat % 256) :
    exec (.wr 0x39 v) s = .next s := by
  rw [exec_wr_rpmHi_eq, be16_byteK_zero, setRpm_of_gt h]

/-- A write of the low byte that keeps RPM within its bound. -/
theorem exec_wr_rpmLo_of_le (h : s.rpm.toNat / 256 * 256 + v.toNat ≤ 10000) :
    exec (.wr 0x3A v) s =
      .next { s with rpm := BitVec.ofNat 16 (s.rpm.toNat / 256 * 256 + v.toNat) } := by
  rw [exec_wr_rpmLo_eq, be16_byteK_one, setRpm_of_le h]

/-- Clearing the low byte lowers RPM to its high byte, so the bound never rejects it. -/
theorem exec_wr_rpmLo_zero (h : s.rpm.toNat ≤ 10000) :
    exec (.wr 0x3A 0x00) s = .next { s with rpm := BitVec.ofNat 16 (s.rpm.toNat / 256 * 256) } := by
  have hle : s.rpm.toNat / 256 * 256 ≤ 10000 := (Nat.div_mul_le_self _ _).trans h
  rw [exec_wr_rpmLo_eq, be16_byteK_one, show (0x00 : Byte).toNat = 0 from rfl, Nat.add_zero,
    setRpm_of_le hle]

/-- With the low byte clear, a write of the high byte forms that byte alone. -/
theorem exec_wr_rpmHi_of_low_zero (hlow : s.rpm.toNat % 256 = 0) (h : v.toNat * 256 ≤ 10000) :
    exec (.wr 0x39 v) s = .next { s with rpm := BitVec.ofNat 16 (v.toNat * 256) } := by
  have hle : v.toNat * 256 + s.rpm.toNat % 256 ≤ 10000 := by
    rw [hlow, Nat.add_zero]; exact h
  rw [exec_wr_rpmHi_of_le hle, hlow, Nat.add_zero]

/-- With the high byte `n` in place and the low one clear, a write of the low byte completes the
target. -/
theorem exec_wr_rpmLo_of_high {n : Nat} (hhigh : s.rpm.toNat = n * 256)
    (h : n * 256 + v.toNat ≤ 10000) :
    exec (.wr 0x3A v) s = .next { s with rpm := BitVec.ofNat 16 (n * 256 + v.toNat) } := by
  have hdiv : s.rpm.toNat / 256 * 256 = n * 256 := by omega
  rw [exec_wr_rpmLo_of_le (by rwa [hdiv]), hdiv]

end

/-- Settles O20: after the first write RPM is at most its old value, after the second at most the
target, so the bound rejects none of the three; in the example the high byte forms 10239. -/
theorem safeRpmSequenceSetsAnyTarget : Obligations.SafeRpmSequenceSetsAnyTarget := by
  refine ⟨fun s h l hs htarget => ?_, fun s hs => exec_wr_rpmHi_of_gt (by rw [hs]; decide)⟩
  have hcleared : (BitVec.ofNat 16 (s.rpm.toNat / 256 * 256)).toNat % 256 = 0 := by
    rw [BitVec.toNat_ofNat]; omega
  have hhigh : (BitVec.ofNat 16 (h.toNat * 256)).toNat = h.toNat * 256 := by
    rw [BitVec.toNat_ofNat]; omega
  have hhi : h.toNat * 256 ≤ 10000 := (Nat.le_add_right _ _).trans htarget
  rw [runScript_cons_next (exec_wr_rpmLo_zero hs),
    runScript_cons_next (exec_wr_rpmHi_of_low_zero hcleared hhi),
    runScript_cons_next (exec_wr_rpmLo_of_high hhigh htarget), runScript_nil]

end Sys2Proof.Machine
